-- ==== Sys2Proof/Word.lean ====
section
/-! DEFINITION. The word types of the block (spec 00_scope.md section 6, rule R5): bytes, the six
16-bit registers, and the 32-bit words a register slot presents. -/

namespace Sys2Proof

/-- One byte of a staging buffer, of a packet or of a reply. -/
abbrev Byte := BitVec 8

/-- The contents of one of the six registers (rule R5: "six registers of 16 bits"). -/
abbrev Reg := BitVec 16

/-- A 32-bit register slot as the bridge presents it (rule R42). -/
abbrev Word := BitVec 32

/-- An SPI packet: exactly twelve bytes, `p[0]` first on the wire (rules R5, R64). -/
abbrev Packet := Vector Byte 12

end Sys2Proof
end

