-- ==== Sys2Proof/Config.lean ====
section
/-! DEFINITION. What the environment fixes and the spec leaves open: the OPEN parameters of rule R6 as
constants without a body (nothing can be proved of their values beyond their types), and the disc
oracle of rule R3 as plain data. -/

namespace Sys2Proof

namespace Config

/-- `MAX_SECTOR_SIZE - 1` (rule R6: OPEN, with `1 <= MAX_SECTOR_SIZE <= 65535`).
UNVERIFIED value: a free constant; log entry 1, safe. -/
opaque maxSectorSizePred : Fin 65535

/-- `MAX_SECTOR_SIZE`, the largest byte count one `read_sector` may return (rule R6). -/
def maxSectorSize : Nat := maxSectorSizePred.val + 1

/-- The bytes of `SECU_REPLY` by index (rules R6, R170: OPEN; only 0 to 125 are used).
A free constant; log entry 2, safe. -/
opaque secuReply : Nat → Byte

/-- `TOC_PAD.b2`, byte 2 of the TOC slots `first` and `last` (rules R6, R159: OPEN). Log entry 3, safe. -/
opaque tocPadB2 : Byte

/-- `TOC_PAD.b3`, byte 3 of the TOC slots `first` and `last` (rules R6, R159: OPEN). Log entry 3, safe. -/
opaque tocPadB3 : Byte

/-- `TOC_PAD.l0`, byte 0 of the TOC slot `leadout` (rules R6, R159: OPEN). Log entry 3, safe. -/
opaque tocPadL0 : Byte

/-- `HW_INFO_INIT_NUM`, the numeric bytes 0 to 9 of the hardware-info block at power-on, by index
(rules R6, R21: OPEN). Log entry 4, safe. -/
opaque hwInfoInitNum : Nat → Byte

end Config

/-- A track record `(num, adr, ctrl, fad)` (rule R3); `adr` and `ctrl` are 4-bit attributes (glossary). -/
structure Track where
  num : Nat
  adr : BitVec 4
  ctrl : BitVec 4
  fad : Nat
deriving DecidableEq, Repr

/-- The answer of `get_toc(area)` (rule R3). -/
structure Toc where
  firstTrack : Track
  lastTrack : Track
  leadinFad : Nat
  leadoutFad : Nat
deriving DecidableEq, Repr

/-- The answer of `get_session(index)` (rule R3). -/
structure Session where
  firstTrack : Track
  leadoutFad : Nat
deriving DecidableEq, Repr

/-- One answer of `read_sector(fad, fmt, mask)` (rule R3). -/
structure Sector where
  fad : Nat
  fmt : BitVec 3
  mask : BitVec 4
  bytes : List Byte
deriving DecidableEq, Repr

/-- A disc oracle as plain data (rules R2, R3, R20): the answers to finitely many queries, and one
answer for every query not listed. The answers of a bound disc never change (decision D42), which
data gives for free. Log entry 5. -/
structure Disc where
  /-- `get_format()` -/
  format : Nat
  /-- `get_toc(0)` -/
  toc0 : Toc
  /-- `get_toc(1)` -/
  toc1 : Toc
  /-- `num_sessions()` -/
  numSessions : Nat
  /-- `get_session(i)` for `i` below the length -/
  sessions : List Session
  /-- `get_session(i)` for every other `i` -/
  otherSession : Session
  /-- `get_track(i)` for `i` below the length -/
  tracks : List Track
  /-- `get_track(i)` for every other `i` -/
  otherTrack : Track
  /-- `read_sector(fad, fmt, mask)` where listed (the first entry counts) -/
  sectors : List Sector
  /-- `read_sector` for every query not listed -/
  otherSector : List Byte
deriving DecidableEq, Repr

/-- The obligation on the environment's disc (decision D42, rule R185): no `read_sector` answers more
than `MAX_SECTOR_SIZE` bytes. -/
abbrev Disc.meetsObligation (d : Disc) : Prop :=
  d.otherSector.length ≤ Config.maxSectorSize ∧
    ∀ x ∈ d.sectors, x.bytes.length ≤ Config.maxSectorSize

end Sys2Proof
end

