-- ==== Sys2Proof/Syntax.lean ====
section
/-! DEFINITION. The instructions: one constructor per row of the opcode table (spec
opcode_table.json, rule R60), in the table's order: host operations (level 0), ATA commands
(level 1), SPI packet commands (level 2). Operands are those of rules R61, R66, R98, R99. -/

namespace Sys2Proof

inductive Instr where
  /-- R80 -/
  | rdAltstatus
  /-- R81 -/
  | wrDevctrl (v : Reg)
  /-- R82 -/
  | rdData
  /-- R83 -/
  | wrData (v : Reg)
  /-- R84 -/
  | rdError
  /-- R85 -/
  | wrFeatures (v : Reg)
  /-- R86 -/
  | rdIntreason
  /-- R87 -/
  | wrSlot3 (v : Reg)
  /-- R88 -/
  | rdSectnum
  /-- R89 -/
  | wrSlot4 (v : Reg)
  /-- R90 -/
  | rdBytecountLo
  /-- R91 -/
  | wrBytecountLo (v : Reg)
  /-- R92 -/
  | rdBytecountHi
  /-- R93 -/
  | wrBytecountHi (v : Reg)
  /-- R94 -/
  | rdDrvsel
  /-- R95 -/
  | wrDrvsel (v : Reg)
  /-- R96 -/
  | rdStatus
  /-- R97 -/
  | wrCommand (v : Reg)
  /-- R98 -/
  | dmard (n : Nat)
  /-- R99 -/
  | bind (d : Option Disc)
  /-- R131 -/
  | ataNop
  /-- R132 -/
  | ataSoftReset
  /-- R135 -/
  | ataExecDiag
  /-- R133 -/
  | ataPacketCmd
  /-- R136 -/
  | ataIdentifyDev
  /-- R134 -/
  | ataSetFeatures
  /-- R137: any command byte not matched by another ATA row -/
  | ataUnknown (c : Byte)
  /-- R151 -/
  | spiTestUnit
  /-- R152 -/
  | spiReqStat (offset size : Byte)
  /-- R154 -/
  | spiReqMode (offset size : Byte)
  /-- R155 -/
  | spiSetMode (offset size : Byte)
  /-- R156 -/
  | spiReqError (size : Byte)
  /-- R158 -/
  | spiGetToc (area : Bool) (size : BitVec 16)
  /-- R160 -/
  | spiReqSes (sessionNum size : Byte)
  /-- R162 -/
  | spiCdOpen
  /-- R163 -/
  | spiCdPlay
  /-- R164 -/
  | spiCdSeek (param : BitVec 4)
  /-- R165 -/
  | spiCdScan
  /-- R166; `a b c` are the address bytes `p[2] p[3] p[4]` -/
  | spiCdRead (msf : Bool) (fmt : BitVec 3) (mask : BitVec 4) (a b c : Byte) (count : BitVec 24)
  /-- R167 -/
  | spiCdRead2
  /-- R168 -/
  | spiGetScd (format : BitVec 4) (size : BitVec 16)
  /-- R169 -/
  | spiChkSecu
  /-- R170 -/
  | spiReqSecu
  /-- R171: any opcode not matched by another SPI row -/
  | spiUnknown (c : Byte)
deriving DecidableEq, Repr

/-- Commands of the SPI level. -/
def Instr.isSpi : Instr → Bool
  | .spiTestUnit | .spiReqStat _ _ | .spiReqMode _ _ | .spiSetMode _ _ | .spiReqError _
  | .spiGetToc _ _ | .spiReqSes _ _ | .spiCdOpen | .spiCdPlay | .spiCdSeek _ | .spiCdScan
  | .spiCdRead _ _ _ _ _ _ _ | .spiCdRead2 | .spiGetScd _ _ | .spiChkSecu | .spiReqSecu
  | .spiUnknown _ => true
  | .rdAltstatus | .wrDevctrl _ | .rdData | .wrData _ | .rdError | .wrFeatures _ | .rdIntreason
  | .wrSlot3 _ | .rdSectnum | .wrSlot4 _ | .rdBytecountLo | .wrBytecountLo _ | .rdBytecountHi
  | .wrBytecountHi _ | .rdDrvsel | .wrDrvsel _ | .rdStatus | .wrCommand _ | .dmard _ | .bind _
  | .ataNop | .ataSoftReset | .ataExecDiag | .ataPacketCmd | .ataIdentifyDev | .ataSetFeatures
  | .ataUnknown _ => false

end Sys2Proof
end

