-- ==== Sys2Proof/WellFormed.lean ====
section
/-! DEFINITION. The instructions the encodings admit. Three checks: an `ataUnknown` byte is none of the
six named ATA codes (rule R63), an `spiUnknown` opcode is none of the sixteen named ones (rule R65),
and a disc handed to BIND meets the environment's obligation (decision D42, U25). Every other operand
is held to its range by its type. -/

namespace Sys2Proof

/-- The six named ATA command codes of rule R63. -/
def ataCodes : List Byte := [0x00, 0x08, 0x90, 0xA0, 0xA1, 0xEF]

/-- The sixteen named SPI opcodes of rule R65. -/
def spiCodes : List Byte :=
  [0x00, 0x10, 0x11, 0x12, 0x13, 0x14, 0x15, 0x16,
   0x20, 0x21, 0x22, 0x30, 0x31, 0x40, 0x70, 0x71]

/-- A well-formed instruction. The disc obligation compares with the free constant
`Config.maxSectorSize`, so this is a decidable proposition rather than a number the kernel computes. -/
abbrev Instr.wellFormed : Instr → Prop
  | .ataUnknown c => c ∉ ataCodes
  | .spiUnknown c => c ∉ spiCodes
  | .bind (some d) => d.meetsObligation
  | .bind none => True
  | .rdAltstatus | .rdData | .rdError | .rdIntreason | .rdSectnum | .rdBytecountLo
  | .rdBytecountHi | .rdDrvsel | .rdStatus | .dmard _ => True
  | .wrDevctrl _ | .wrData _ | .wrFeatures _ | .wrSlot3 _ | .wrSlot4 _ | .wrBytecountLo _
  | .wrBytecountHi _ | .wrDrvsel _ | .wrCommand _ => True
  | .ataNop | .ataSoftReset | .ataExecDiag | .ataPacketCmd | .ataIdentifyDev | .ataSetFeatures => True
  | .spiTestUnit | .spiReqStat _ _ | .spiReqMode _ _ | .spiSetMode _ _ | .spiReqError _
  | .spiGetToc _ _ | .spiReqSes _ _ | .spiCdOpen | .spiCdPlay | .spiCdSeek _ | .spiCdScan
  | .spiCdRead _ _ _ _ _ _ _ | .spiCdRead2 | .spiGetScd _ _ | .spiChkSecu | .spiReqSecu => True

end Sys2Proof
end

