-- ==== Sys2Proof/Decode.lean ====
section
/-! DEFINITION. Decoding at the three levels of rule R60 (a host operation, an ATA command byte, an SPI
packet), total and rejecting by name, and after it the encoder written from the same tables (rules
R61 to R66). -/

namespace Sys2Proof

/-- What accompanies the 5-bit code of a host operation on the bus (rules R61, R98, R99): nothing for a
register read, the 32-bit slot word for a register write (rule R42), the byte limit of a DMA read
request, the disc of a bind. -/
inductive Operand where
  | absent
  | word (v : Word)
  | count (n : Nat)
  | disc (d : Option Disc)
deriving DecidableEq, Repr

/-- A host operation as it reaches the block: the code `{w, slot[3:0]}` of rule R61 and its operand. -/
structure HostOp where
  code : BitVec 5
  operand : Operand
deriving DecidableEq, Repr

/-- Something of one of the three levels, still in encoded form. -/
inductive Coded where
  | host (op : HostOp)
  | ata (c : Byte)
  | spi (p : Packet)
deriving DecidableEq, Repr

/-- Why a host operation is none of the block's (rule R62, U26). ATA bytes and SPI packets are never
rejected: an unnamed one is itself an instruction of the table (rules R137, R171). -/
inductive Reject where
  /-- slots 11 to 15, a write to slot 9, a read of slot 10 (rule R62); safe: the run stops -/
  | noSuchSlot (code : BitVec 5)
  /-- the operand is not of the kind the code takes (rule R61); safe: the run stops -/
  | operandMismatch (code : BitVec 5)
deriving DecidableEq, Repr

/-- The codes of rule R62's table. -/
def hostCodes : List (BitVec 5) :=
  [0x00, 0x01, 0x02, 0x03, 0x04, 0x05, 0x06, 0x07, 0x08, 0x09,
   0x10, 0x11, 0x12, 0x13, 0x14, 0x15, 0x16, 0x17, 0x18, 0x1A]

/-- A slot write uses bits 15:0 of the written word and ignores bits 31:16 (rule R42). -/
def slotValue (v : Word) : Reg := v.extractLsb' 0 16

/-- Level 0 (rule R62). -/
def decodeHost (op : HostOp) : Except Reject Instr :=
  match op.code.toNat, op.operand with
  | 0x00, .absent => .ok .rdAltstatus
  | 0x01, .absent => .ok .rdData
  | 0x02, .absent => .ok .rdError
  | 0x03, .absent => .ok .rdIntreason
  | 0x04, .absent => .ok .rdSectnum
  | 0x05, .absent => .ok .rdBytecountLo
  | 0x06, .absent => .ok .rdBytecountHi
  | 0x07, .absent => .ok .rdDrvsel
  | 0x08, .absent => .ok .rdStatus
  | 0x09, .count n => .ok (.dmard n)
  | 0x10, .word v => .ok (.wrDevctrl (slotValue v))
  | 0x11, .word v => .ok (.wrData (slotValue v))
  | 0x12, .word v => .ok (.wrFeatures (slotValue v))
  | 0x13, .word v => .ok (.wrSlot3 (slotValue v))
  | 0x14, .word v => .ok (.wrSlot4 (slotValue v))
  | 0x15, .word v => .ok (.wrBytecountLo (slotValue v))
  | 0x16, .word v => .ok (.wrBytecountHi (slotValue v))
  | 0x17, .word v => .ok (.wrDrvsel (slotValue v))
  | 0x18, .word v => .ok (.wrCommand (slotValue v))
  | 0x1A, .disc d => .ok (.bind d)
  | _, _ =>
    if op.code ∈ hostCodes then .error (.operandMismatch op.code)
    else .error (.noSuchSlot op.code)

/-- The ATA command byte of a value written to the COMMAND slot: bits 7:0 (rules R63, R97). -/
def commandByte (v : Reg) : Byte := v.extractLsb' 0 8

/-- Level 1 (rule R63): the whole byte is the opcode. -/
def decodeAta (c : Byte) : Instr :=
  match c.toNat with
  | 0x00 => .ataNop
  | 0x08 => .ataSoftReset
  | 0x90 => .ataExecDiag
  | 0xA0 => .ataPacketCmd
  | 0xA1 => .ataIdentifyDev
  | 0xEF => .ataSetFeatures
  | _ => .ataUnknown c

/-- A 16-bit size `{hi, lo}`, `p[3]` high (rules R66, R68). -/
def size16 (hi lo : Byte) : BitVec 16 := hi ++ lo

/-- The 24-bit sector count `{p[8], p[9], p[10]}`, `p[8]` high (rules R66, R69). -/
def count24 (hi mid lo : Byte) : BitVec 24 := hi ++ mid ++ lo

/-- Level 2 (rules R65, R66): `p[0]` selects the command and the named fields are its operands.
Bytes and bits a command does not use are ignored (rule R64). -/
def decodeSpi (p : Packet) : Instr :=
  match p[0].toNat with
  | 0x00 => .spiTestUnit
  | 0x10 => .spiReqStat p[2] p[4]
  | 0x11 => .spiReqMode p[2] p[4]
  | 0x12 => .spiSetMode p[2] p[4]
  | 0x13 => .spiReqError p[4]
  | 0x14 => .spiGetToc (p[1].getLsbD 0) (size16 p[3] p[4])
  | 0x15 => .spiReqSes p[2] p[4]
  | 0x16 => .spiCdOpen
  | 0x20 => .spiCdPlay
  | 0x21 => .spiCdSeek (p[1].extractLsb' 0 4)
  | 0x22 => .spiCdScan
  | 0x30 => .spiCdRead (p[1].getLsbD 0) (p[1].extractLsb' 1 3) (p[1].extractLsb' 4 4)
      p[2] p[3] p[4] (count24 p[8] p[9] p[10])
  | 0x31 => .spiCdRead2
  | 0x40 => .spiGetScd (p[1].extractLsb' 0 4) (size16 p[3] p[4])
  | 0x70 => .spiChkSecu
  | 0x71 => .spiReqSecu
  | _ => .spiUnknown p[0]

/-- Decoding at whichever level the coded form stands. -/
def decode : Coded → Except Reject Instr
  | .host op => decodeHost op
  | .ata c => .ok (decodeAta c)
  | .spi p => .ok (decodeSpi p)

/-! ### The encoder -/

/-- A register read: `w` = 0 and no operand (rule R61). -/
def readOp (slot : BitVec 4) : Coded := .host ⟨0#1 ++ slot, .absent⟩

/-- A register write: `w` = 1 and the value in bits 15:0 of the slot word (rules R42, R61). -/
def writeOp (slot : BitVec 4) (v : Reg) : Coded := .host ⟨1#1 ++ slot, .word (v.setWidth 32)⟩

/-- A packet with its opcode and bytes 1 to 4, every other byte 0x00 (rule R73). -/
def packet5 (p0 p1 p2 p3 p4 : Byte) : Coded := .spi #v[p0, p1, p2, p3, p4, 0, 0, 0, 0, 0, 0, 0]

/-- Byte `i` of a bit string, counted from its least significant end. -/
def byteAt {w : Nat} (v : BitVec w) (i : Nat) : Byte := v.extractLsb' (8 * i) 8

/-- The encoding of every instruction (rules R61 to R66, R73). -/
def encode : Instr → Coded
  | .rdAltstatus => readOp 0
  | .wrDevctrl v => writeOp 0 v
  | .rdData => readOp 1
  | .wrData v => writeOp 1 v
  | .rdError => readOp 2
  | .wrFeatures v => writeOp 2 v
  | .rdIntreason => readOp 3
  | .wrSlot3 v => writeOp 3 v
  | .rdSectnum => readOp 4
  | .wrSlot4 v => writeOp 4 v
  | .rdBytecountLo => readOp 5
  | .wrBytecountLo v => writeOp 5 v
  | .rdBytecountHi => readOp 6
  | .wrBytecountHi v => writeOp 6 v
  | .rdDrvsel => readOp 7
  | .wrDrvsel v => writeOp 7 v
  | .rdStatus => readOp 8
  | .wrCommand v => writeOp 8 v
  | .dmard n => .host ⟨0#1 ++ 9#4, .count n⟩
  | .bind d => .host ⟨1#1 ++ 10#4, .disc d⟩
  | .ataNop => .ata 0x00
  | .ataSoftReset => .ata 0x08
  | .ataExecDiag => .ata 0x90
  | .ataPacketCmd => .ata 0xA0
  | .ataIdentifyDev => .ata 0xA1
  | .ataSetFeatures => .ata 0xEF
  | .ataUnknown c => .ata c
  | .spiTestUnit => packet5 0x00 0 0 0 0
  | .spiReqStat offset size => packet5 0x10 0 offset 0 size
  | .spiReqMode offset size => packet5 0x11 0 offset 0 size
  | .spiSetMode offset size => packet5 0x12 0 offset 0 size
  | .spiReqError size => packet5 0x13 0 0 0 size
  | .spiGetToc area size =>
    packet5 0x14 (0#7 ++ BitVec.ofBool area) 0 (byteAt size 1) (byteAt size 0)
  | .spiReqSes sessionNum size => packet5 0x15 0 sessionNum 0 size
  | .spiCdOpen => packet5 0x16 0 0 0 0
  | .spiCdPlay => packet5 0x20 0 0 0 0
  | .spiCdSeek param => packet5 0x21 (0#4 ++ param) 0 0 0
  | .spiCdScan => packet5 0x22 0 0 0 0
  | .spiCdRead msf fmt mask a b c count =>
    .spi #v[0x30, mask ++ fmt ++ BitVec.ofBool msf, a, b, c, 0, 0, 0,
      byteAt count 2, byteAt count 1, byteAt count 0, 0]
  | .spiCdRead2 => packet5 0x31 0 0 0 0
  | .spiGetScd format size => packet5 0x40 (0#4 ++ format) 0 (byteAt size 1) (byteAt size 0)
  | .spiChkSecu => packet5 0x70 0 0 0 0
  | .spiReqSecu => packet5 0x71 0 0 0 0
  | .spiUnknown c => packet5 c 0 0 0 0

/-! ### The opcode table's numbering -/

/-- Byte `i` of an instruction numbered as the opcode table numbers it. -/
def tableByte (w i : Nat) : Byte := BitVec.ofNat 8 (w / 256 ^ i)

/-- The twelve packet bytes of a table word: bits 7:0 are `p[0]`, bits 15:8 `p[1]`, and so on. -/
def tablePacket (w : Nat) : Packet :=
  #v[tableByte w 0, tableByte w 1, tableByte w 2, tableByte w 3, tableByte w 4, tableByte w 5,
     tableByte w 6, tableByte w 7, tableByte w 8, tableByte w 9, tableByte w 10, tableByte w 11]

/-- The operand a host operation of this code takes, from the bits above its code byte: a write's slot
word, a DMA request's count. A disc has no bits: BIND carries `none`. -/
def tableOperand (code operand : Nat) : Operand :=
  if code = 0x09 then .count operand
  else if code = 0x1A then .disc none
  else if code < 0x10 then .absent
  else .word (BitVec.ofNat 32 operand)

/-- The host operation of a table word: the 5-bit code in the first byte, the operand after it. -/
def tableHostOp (w : Nat) : HostOp :=
  ⟨BitVec.ofNat 5 w, tableOperand (w % 256) (w / 256)⟩

/-- A table word's first byte is a code of rule R62's table. -/
def tableIsHostOp (w : Nat) : Bool := w % 256 < 32 && hostCodes.contains (BitVec.ofNat 5 w)

/-- The level at which a table word is read. Twelve bytes are an SPI packet (rule R64); a first byte
that is a host-operation code is a host operation (rule R61); any other single byte is an ATA command
(rule R63). DESIGN CHOICE: the table gives host operations and ATA commands the same byte 0x00 and
0x08, which only the level tells apart, and here the host operation wins (log entry 12). -/
def tableCoded (nbits w : Nat) : Option Coded :=
  if 96 ≤ nbits then some (.spi (tablePacket w))
  else if tableIsHostOp w then some (.host (tableHostOp w))
  else if 5 < nbits && w < 256 then some (.ata (BitVec.ofNat 8 w))
  else none

/-- The instruction this decoder reads from the bits of an opcode-table row. -/
def decodeTableWord (nbits w : Nat) : Option Instr :=
  match tableCoded nbits w with
  | none => none
  | some c =>
    match decode c with
    | .ok i => some i
    | .error _ => none

end Sys2Proof
end

