-- ==== Sys2Proof/Machine/State.lean ====
section
/-! DEFINITION. The block's state (spec 10_state.md rule R10), the reasons a step can stop, and the
state after power-on reset (rules R34, R230). -/

namespace Sys2Proof.Machine

/-- The phase state (rule R18). -/
inductive Phase where
  /-- idle, awaiting an ATA command -/
  | readAtaCmd
  /-- receiving the 12-byte packet -/
  | readAtaData
  /-- receiving an SPI payload from the host -/
  | readSpiData
  /-- sending an SPI payload by PIO -/
  | writeSpiData
  /-- sending a CD-read payload by DMA -/
  | writeDmaData
deriving DecidableEq, Repr

/-- The events of rule R111. `ATA_CMD`'s command byte travels with its handler. -/
inductive Event where
  | ataCmd
  | pioWrite
  | spiCmd
  | pioRead
  | spiData
deriving DecidableEq, Repr

/-- The fault causes of rule R202, in the order of their codes 1 to 11. -/
inductive Cause where
  /-- F_ILLEGAL_EVENT: an event in a state whose table cell is a dash (rule R114) -/
  | illegalEvent
  /-- F_RO_WRITE: a write to slot 3 or 4 (rules R87, R89) -/
  | roWrite
  /-- F_ATA_UNSUPPORTED: EXEC_DIAG, IDENTIFY_DEV (rules R135, R136) -/
  | ataUnsupported
  /-- F_ATA_UNKNOWN: an ATA code not named (rule R137) -/
  | ataUnknown
  /-- F_SPI_UNSUPPORTED: CD_OPEN, CD_READ2 (rules R162, R167) -/
  | spiUnsupported
  /-- F_SPI_UNKNOWN: an SPI opcode not named (rule R171) -/
  | spiUnknown
  /-- F_BOUNDS (rules R82, R159, R160) -/
  | bounds
  /-- F_OVERSIZE (rules R83, R172) -/
  | oversize
  /-- F_NO_DISC (rules R158, R160) -/
  | noDisc
  /-- F_BAD_PARAM (rule R164) -/
  | badParam
  /-- F_DMA_STATE (rule R98) -/
  | dmaState
deriving DecidableEq, Repr

/-- The CD-read progress record (rule R22). `fad` and `remaining` are natural numbers: the spec
computes `cdr.fad + n` without wrap-around (rule R189). -/
structure Cdr where
  dma : Bool
  fmt : BitVec 3
  mask : BitVec 4
  fad : Nat
  remaining : Nat
deriving DecidableEq, Repr

/-- A staging buffer's bytes: the (index, byte) pairs that differ from what an unlisted index reads as,
indices strictly rising (`Memory.wf` in Machine/Ops.lean). -/
abbrev Memory := List Host.Cell

/-- What the last host operation handed to the host ("`return v`", 00_scope.md section 6): nothing, a
32-bit slot word, or the bytes of a DMA read request. The MODEL's own field; log entry 7. -/
inductive Response where
  | none
  | word (v : Word)
  | bytes (l : List Byte)
deriving DecidableEq, Repr

/-- The complete state of the block (rule R10) and two fields of the model's own: the host operations
not yet performed, and what the last one returned. -/
structure State where
  /-- R11 -/
  error : Reg
  /-- R12 -/
  features : Reg
  /-- R13 -/
  intreason : Reg
  /-- R14 -/
  sectnum : Reg
  /-- R15 -/
  byteCount : Reg
  /-- R16 -/
  status : Reg
  /-- R18, the spec's `state` -/
  phase : Phase
  /-- R19 -/
  irq : Bool
  /-- R20 -/
  disc : Option Disc
  /-- R21 -/
  hwInfo : Vector Byte 32
  /-- R22 -/
  cdr : Cdr
  /-- R23 -/
  pioBuf : Memory
  /-- R23 -/
  pioHead : Nat
  /-- R23 -/
  pioSize : Nat
  /-- R23 -/
  pioOffset : Nat
  /-- R24 -/
  dmaBuf : Memory
  /-- R24 -/
  dmaHead : Nat
  /-- R24 -/
  dmaSize : Nat
  /-- R25: `faulted` with its cause -/
  faulted : Option Cause
  /-- the host operations the agents have yet to perform, first one first (rule R47); the model's own
  field, log entry 6 -/
  pending : List HostOp
  /-- the model's own field, log entry 7 -/
  response : Response
deriving DecidableEq, Repr

/-- Why the machine stops. -/
inductive Fault where
  /-- Raised by every operation performed while `faulted` = 1: it has no defined effect or result and
  no successor state (rule R100). Safe: the run stops. -/
  | blockFaulted (cause : Cause)
deriving DecidableEq, Repr

/-- Why the machine refuses. -/
inductive Refusal where
  /-- An instruction whose arm of `exec` has no meaning yet; none is left. Safe: the run stops. -/
  | notModelled (mnemonic : String)
  /-- Raised by `step` on a host operation outside the slot table (rule R62: "not operations of the
  block and cannot be issued"; U26). Safe: the run stops. -/
  | notAnOperation (why : Reject)
  /-- Raised by BIND of a disc outside the obligation on the environment (decision D42; U25:
  "refuse"). Safe: the run stops. -/
  | discOutsideObligation
deriving DecidableEq, Repr

/-- The hardware-info block at power-on (rule R21): ten numeric bytes the spec leaves open, then
"SE" padded with six spaces, "Rev 6.43" and "990408". -/
def hwInfoInit : Vector Byte 32 :=
  #v[Config.hwInfoInitNum 0, Config.hwInfoInitNum 1, Config.hwInfoInitNum 2, Config.hwInfoInitNum 3,
     Config.hwInfoInitNum 4, Config.hwInfoInitNum 5, Config.hwInfoInitNum 6, Config.hwInfoInitNum 7,
     Config.hwInfoInitNum 8, Config.hwInfoInitNum 9,
     0x53, 0x45, 0x20, 0x20, 0x20, 0x20, 0x20, 0x20,
     0x52, 0x65, 0x76, 0x20, 0x36, 0x2E, 0x34, 0x33,
     0x39, 0x39, 0x30, 0x34, 0x30, 0x38]

/-- SECTNUM after a soft reset (rule R138): PAUSE and the disc's format nibble, or NODISC. -/
def sectnumOf : Option Disc → Reg
  | none => 0x0007
  | some d => 0#8 ++ BitVec.ofNat 4 d.format ++ 0x1#4

/-- The state after power-on with the disc `d0` (the table of rule R34). -/
def State.powerOn (d0 : Option Disc) : State where
  error := 0x0000
  features := 0x0000
  intreason := 0x0003
  sectnum := sectnumOf d0
  byteCount := 0x0000
  status := 0x0040
  phase := .readAtaCmd
  irq := false
  disc := d0
  hwInfo := hwInfoInit
  cdr := ⟨false, 0, 0, 0, 0⟩
  pioBuf := []
  pioHead := 0
  pioSize := 0
  pioOffset := 0
  dmaBuf := []
  dmaHead := 0
  dmaSize := 0
  faulted := none
  pending := []
  response := .none

/-- The machine right after reset (rules R34, R230). DESIGN CHOICE: no disc is present at power-on
(`d0` is the environment's); log entry 8. -/
def State.reset : State := State.powerOn none

end Sys2Proof.Machine
end

