-- ==== Sys2Proof/Machine/Flags.lean ====
section
/-! DEFINITION. The register fields (spec 10_state.md rules R11 to R16): `X.F` and `X.F <- v`, which
"writes that field and leaves the other bits of X unchanged" (00_scope.md section 6). -/

namespace Sys2Proof.Machine

/-- `X[lo+w-1:lo] <- v`. -/
def putField (r : Reg) (lo : Nat) {w : Nat} (v : BitVec w) : Reg :=
  (r &&& ~~~((BitVec.allOnes w).setWidth 16 <<< lo)) ||| (v.setWidth 16 <<< lo)

/-- `X[i] <- b`. -/
def putBit (r : Reg) (i : Nat) (b : Bool) : Reg := putField r i (BitVec.ofBool b)

/-- `ERROR.ABRT <- b` (bit 2, rule R11). -/
def putAbrt (b : Bool) (r : Reg) : Reg := putBit r 2 b
/-- `INTREASON.CoD <- b` (bit 0, rule R13). -/
def putCod (b : Bool) (r : Reg) : Reg := putBit r 0 b
/-- `INTREASON.IO <- b` (bit 1, rule R13). -/
def putIo (b : Bool) (r : Reg) : Reg := putBit r 1 b
/-- `SECTNUM.status <- v` (bits 3:0, rule R14). -/
def putDriveStatus (v : BitVec 4) (r : Reg) : Reg := putField r 0 v
/-- `SECTNUM.format <- v` (bits 7:4, rule R14). -/
def putFormat (v : BitVec 4) (r : Reg) : Reg := putField r 4 v
/-- `BYTECOUNT[7:0] <- v` (rule R15). -/
def putLo (v : Byte) (r : Reg) : Reg := putField r 0 v
/-- `BYTECOUNT[15:8] <- v` (rule R15). -/
def putHi (v : Byte) (r : Reg) : Reg := putField r 8 v
/-- `STATUS.BSY <- b` (bit 7, rule R16). -/
def putBsy (b : Bool) (r : Reg) : Reg := putBit r 7 b
/-- `STATUS.DRDY <- b` (bit 6, rule R16). -/
def putDrdy (b : Bool) (r : Reg) : Reg := putBit r 6 b
/-- `STATUS.DRQ <- b` (bit 3, rule R16). -/
def putDrq (b : Bool) (r : Reg) : Reg := putBit r 3 b
/-- `STATUS.CHECK <- b` (bit 0, rule R16). -/
def putCheck (b : Bool) (r : Reg) : Reg := putBit r 0 b

/-- `ERROR.ABRT` -/
def State.abrt (s : State) : Bool := s.error.getLsbD 2
/-- `FEATURES.DMA` (bit 0, rule R12) -/
def State.featuresDma (s : State) : Bool := s.features.getLsbD 0
/-- `INTREASON.CoD` -/
def State.cod (s : State) : Bool := s.intreason.getLsbD 0
/-- `INTREASON.IO` -/
def State.io (s : State) : Bool := s.intreason.getLsbD 1
/-- `SECTNUM.status` -/
def State.driveStatus (s : State) : BitVec 4 := s.sectnum.extractLsb' 0 4
/-- `SECTNUM.format` -/
def State.discFormat (s : State) : BitVec 4 := s.sectnum.extractLsb' 4 4
/-- `BYTECOUNT[7:0]` -/
def State.byteCountLo (s : State) : Byte := s.byteCount.extractLsb' 0 8
/-- `BYTECOUNT[15:8]` -/
def State.byteCountHi (s : State) : Byte := s.byteCount.extractLsb' 8 8
/-- `STATUS.BSY` -/
def State.bsy (s : State) : Bool := s.status.getLsbD 7
/-- `STATUS.DRDY` -/
def State.drdy (s : State) : Bool := s.status.getLsbD 6
/-- `STATUS.DRQ` -/
def State.drq (s : State) : Bool := s.status.getLsbD 3
/-- `STATUS.CHECK` -/
def State.check (s : State) : Bool := s.status.getLsbD 0

/-- The drive status codes the block ever stores (rule R32). -/
def drivePause : BitVec 4 := 0x1
/-- STANDBY (rule R32) -/
def driveStandby : BitVec 4 := 0x2
/-- NODISC (rule R32) -/
def driveNoDisc : BitVec 4 := 0x7

end Sys2Proof.Machine
end

