-- ==== Sys2Proof/Machine/Operands.lean ====
section
/-! DEFINITION. Operand assembly and wire formats (spec 30_encoding.md rules R66 to R69, R74;
20_memory.md rules R42 to R44; 43_spi_commands.md rule R172), and the queries of the disc oracle
(00_scope.md rule R3). -/

namespace Sys2Proof.Machine

/-- A read returns the 16-bit value zero-extended to 32 bits (rule R42). -/
def slotWord (v : Reg) : Word := v.setWidth 32

/-- The byte a DATA word stores at the lower buffer index: bits 7:0 (rule R43). -/
def lowByte (v : Reg) : Byte := v.extractLsb' 0 8

/-- The byte a DATA word stores at the higher buffer index: bits 15:8 (rule R43). -/
def highByte (v : Reg) : Byte := v.extractLsb' 8 8

/-- `{hi, lo}`: the word of two buffer bytes, the byte at the lower index in bits 7:0 (rule R43). -/
def dataWord (lo hi : Byte) : Reg := hi ++ lo

/-- The start address of CD_READ (rule R67): a 24-bit big-endian FAD, or minutes, seconds, frames. -/
def getFad (a b c : Byte) (msf : Bool) : Nat :=
  if msf then a.toNat * 60 * 75 + b.toNat * 75 + c.toNat
  else a.toNat * 65536 + b.toNat * 256 + c.toNat

/-- `be24(fad[23:0])`: three bytes, most significant first, of the low 24 bits (rule R74). -/
def be24 (fad : Nat) : List Byte :=
  [BitVec.ofNat 8 (fad / 65536), BitVec.ofNat 8 (fad / 256), BitVec.ofNat 8 fad]

/-- Two nibbles sharing a byte, `{hi, lo}` (rule R75). -/
def nibbles (hi lo : BitVec 4) : Byte := hi ++ lo

/-- `O[offset .. offset+size)` (rule R172). -/
def slice (o : List Byte) (offset size : Nat) : List Byte := (o.drop offset).take size

/-- `Disc.get_toc(area)` (rule R3). -/
def Disc.getToc (d : Disc) (area : Bool) : Toc := if area then d.toc1 else d.toc0

/-- `Disc.get_session(index)` (rule R3). -/
def Disc.getSession (d : Disc) (i : Nat) : Session := d.sessions.getD i d.otherSession

/-- `Disc.get_track(index)` (rule R3). -/
def Disc.getTrack (d : Disc) (i : Nat) : Track := d.tracks.getD i d.otherTrack

/-- `Disc.read_sector(fad, fmt, mask)` (rule R3). -/
def Disc.readSector (d : Disc) (fad : Nat) (fmt : BitVec 3) (mask : BitVec 4) : List Byte :=
  match d.sectors.find? (fun x => x.fad == fad && x.fmt == fmt && x.mask == mask) with
  | some x => x.bytes
  | none => d.otherSector

end Sys2Proof.Machine
end

