-- ==== Sys2Proof/Machine/Ops.lean ====
section
/-! DEFINITION. The shared operations: the staging buffers (spec 20_memory.md), `raise Fault` and the
interrupt line (60_exceptions.md rules R201, R206, R207), the delivery of events
(41_state_machine.md rules R112 to R114), and what makes a handler a host operation
(40_register_access.md rule R100). -/

namespace Sys2Proof.Machine

/-! ### Staging buffers -/

/-- What a buffer byte that nothing has written reads as. DESIGN CHOICE: the spec leaves the contents
unspecified and unobservable (rule R34, U17); log entry 9. -/
def Memory.unlisted : Byte := 0x00

/-- The canonical form from index `lo` on: indices rising, no byte equal to `Memory.unlisted`. -/
def Memory.wfFrom (lo : Nat) : Memory → Bool
  | [] => true
  | (a, b) :: m => decide (lo ≤ a) && b != Memory.unlisted && Memory.wfFrom (a + 1) m

/-- The canonical form of a buffer: indices strictly rising, no unlisted value listed. -/
def Memory.wf (m : Memory) : Bool := Memory.wfFrom 0 m

/-- `buf[a]` -/
def Memory.read : Memory → Nat → Byte
  | [], _ => Memory.unlisted
  | (a', b) :: m, a => if a = a' then b else Memory.read m a

/-- A buffer holding one cell in front of `m`, unless it holds the unlisted value. -/
def Memory.cons (a : Nat) (b : Byte) (m : Memory) : Memory :=
  if b = Memory.unlisted then m else (a, b) :: m

/-- `buf[a] <- b`, keeping the canonical form. -/
def Memory.write : Memory → Nat → Byte → Memory
  | [], a, b => Memory.cons a b []
  | (a', b') :: m, a, b =>
    if a < a' then Memory.cons a b ((a', b') :: m)
    else if a = a' then Memory.cons a b m
    else (a', b') :: Memory.write m a b

/-- `buf[a .. a+n)` -/
def Memory.readRange (m : Memory) (a : Nat) : Nat → List Byte
  | 0 => []
  | n + 1 => Memory.read m a :: Memory.readRange m (a + 1) n

/-- `buf[a .. a+len(bytes)) <- bytes` -/
def Memory.writeRange (m : Memory) (a : Nat) : List Byte → Memory
  | [] => m
  | b :: bytes => Memory.write (Memory.writeRange m (a + 1) bytes) a b

/-- `hw_info[offset .. offset+len(bytes)) <- bytes` (rule R117). -/
def hwInfoWrite (h : Vector Byte 32) (offset : Nat) (bytes : List Byte) : Vector Byte 32 :=
  Vector.ofFn fun i =>
    if offset ≤ i.val ∧ i.val < offset + bytes.length then bytes.getD (i.val - offset) 0 else h[i]

/-! ### Taking a fault, raising and acknowledging the interrupt -/

/-- `raise Fault(cause)` (rule R201): `faulted <- 1` with the cause; what was written earlier in the
operation stays, a read returns no value, ERROR, CHECK and `irq` are not touched. There is no return
from it: only power-on reset leaves `faulted` 0 (rule R25). -/
def raiseFault (c : Cause) (s : State) : State := { s with faulted := some c, response := .none }

/-- `raise_irq()` is `irq <- 1` (rule R206). -/
def raiseIrq (s : State) : State := { s with irq := true }

/-- `clear_irq()` is `irq <- 0` (rule R207): the acknowledgement by RD STATUS. -/
def clearIrq (s : State) : State := { s with irq := false }

/-- `return v`, unless the operation has faulted (rule R201: "a read returns no defined value"). -/
def answer (r : Response) (s : State) : State :=
  match s.faulted with
  | none => { s with response := r }
  | some _ => s

/-! ### Events -/

/-- The transition table of rule R112: `true` where the cell names a handler, `false` for a dash. Each
event has one handler, so the cell's name is the event's. -/
def handles : Phase → Event → Bool
  | .readAtaCmd, .ataCmd => true
  | .readAtaCmd, .pioWrite => false
  | .readAtaCmd, .spiCmd => false
  | .readAtaCmd, .pioRead => false
  | .readAtaCmd, .spiData => false
  | .readAtaData, .ataCmd => true
  | .readAtaData, .pioWrite => true
  | .readAtaData, .spiCmd => true
  | .readAtaData, .pioRead => false
  | .readAtaData, .spiData => false
  | .readSpiData, .ataCmd => true
  | .readSpiData, .pioWrite => true
  | .readSpiData, .spiCmd => false
  | .readSpiData, .pioRead => false
  | .readSpiData, .spiData => true
  | .writeSpiData, .ataCmd => true
  | .writeSpiData, .pioWrite => false
  | .writeSpiData, .spiCmd => false
  | .writeSpiData, .pioRead => true
  | .writeSpiData, .spiData => false
  | .writeDmaData, .ataCmd => true
  | .writeDmaData, .pioWrite => false
  | .writeDmaData, .spiCmd => false
  | .writeDmaData, .pioRead => true
  | .writeDmaData, .spiData => false

/-- `post(E, arg)` (rules R113, R114): run the event's handler, or fault on a dash. -/
def post (e : Event) (handler : State → State) (s : State) : State :=
  if handles s.phase e then handler s else raiseFault .illegalEvent s

/-! ### Host operations -/

/-- Perform `f` as one atomic operation (rule R47) of a block that is not faulted; on a faulted block no
operation has a successor state (rule R100). -/
def operate (f : State → State) (s : State) : Host.Outcome State Fault Refusal :=
  match s.faulted with
  | some c => .fault (.blockFaulted c)
  | none => .next (f { s with response := .none })

end Sys2Proof.Machine
end

