-- ==== Sys2Proof/Machine/Phases.lean ====
section
/-! DEFINITION. Phase entry and exit (spec 41_state_machine.md rules R118 to R121), the two command
preambles (rules R130, R150), the soft reset (rule R138) and power-on reset (rule R230). -/

namespace Sys2Proof.Machine

/-- The preamble of every ATA command (rule R130). -/
def ataPreamble (s : State) : State :=
  { s with
    status := putCheck false (putDrq false (putBsy true (putDrdy false s.status)))
    error := 0
    cdr := { s.cdr with remaining := 0 } }

/-- `ata_end()` (rule R121). -/
def ataEnd (s : State) : State :=
  raiseIrq { s with
    status := putBsy false (putDrdy true s.status)
    intreason := putIo true (putCod true s.intreason)
    phase := .readAtaCmd }

/-- The preamble of every SPI command (rule R150). It sets BSY, so it clears DRDY: "every rule that sets one
clears the other" (rule R16). DEDUCED: R150's own list is DRQ and BSY, and DRDY is 1 here only after a disc bind
in the packet phase; log entry 11. -/
def spiPreamble (s : State) : State :=
  { s with status := putBsy true (putDrq false (putDrdy false s.status)) }

/-- `spi_end()` (rule R120). -/
def spiEnd (s : State) : State :=
  raiseIrq { s with
    intreason := putIo true (putCod true s.intreason)
    status := putDrq false (putBsy false (putDrdy true s.status))
    phase := .readAtaCmd }

/-- The effects `spi_write` has once its size is accepted (rule R118). -/
def armPioOut (payload : List Byte) (size : Nat) (s : State) : State :=
  raiseIrq { s with
    cdr := { s.cdr with remaining := 0 }
    pioBuf := s.pioBuf.writeRange 0 (payload.take size)
    pioHead := 0
    pioSize := size
    byteCount := BitVec.ofNat 16 size
    intreason := putIo true (putCod false s.intreason)
    status := putBsy false (putDrq true s.status)
    phase := .writeSpiData }

/-- `spi_write(payload, size)` (rule R118). -/
def spiWrite (payload : List Byte) (size : Nat) (s : State) : State :=
  if 65536 < size then raiseFault .oversize s else armPioOut payload size s

/-- `spi_read(offset, size)` (rule R119). -/
def spiRead (offset size : Nat) (s : State) : State :=
  raiseIrq { s with
    cdr := { s.cdr with remaining := 0 }
    pioHead := 0
    pioSize := size
    pioOffset := offset
    byteCount := BitVec.ofNat 16 size
    intreason := putIo false (putCod false s.intreason)
    status := putBsy false (putDrq true s.status)
    phase := .readSpiData }

/-- A slice of an object as a reply (rules R172, R118): the check, then `spi_write`. -/
def replySlice (o : List Byte) (offset size : Nat) (s : State) : State :=
  if o.length < offset + size then raiseFault .oversize s
  else spiWrite (slice o offset size) size s

/-- `soft_reset()` (rule R138): nothing else is written (rule R35). -/
def softReset (s : State) : State :=
  { s with
    error := 0
    status := putBsy false (putDrdy true s.status)
    sectnum :=
      match s.disc with
      | some d => putFormat (BitVec.ofNat 4 d.format) (putDriveStatus drivePause 0)
      | none => putDriveStatus driveNoDisc 0 }

/-- `power_on_reset(d0)` (rule R230), from whatever the block held: every register 0, then the idle
values, then the soft reset. The model's own fields are the environment's and stay. -/
def powerOnReset (d0 : Option Disc) (s : State) : State :=
  softReset { s with
    error := 0, features := 0, sectnum := 0, byteCount := 0, status := 0
    intreason := putIo true (putCod true 0)
    irq := false
    faulted := none
    cdr := ⟨false, 0, 0, 0, 0⟩
    pioHead := 0, pioSize := 0, pioOffset := 0, dmaHead := 0, dmaSize := 0
    hwInfo := hwInfoInit
    phase := .readAtaCmd
    disc := d0 }

end Sys2Proof.Machine
end

