-- ==== Sys2Proof/Machine/Ata.lean ====
section
/-! DEFINITION. The ATA commands (spec 42_ata_commands.md). `ataX` is what the block does when the event
ATA_CMD is posted with the byte of command X: legal in every state (rule R112), preamble, the command's
arm (rule R130); `execAtaX` performs it as one operation. -/

namespace Sys2Proof.Machine

/-- An arm of `ata_cmd`: posted as ATA_CMD, after the preamble (rules R113, R130). -/
def ataArm (arm : State → State) (s : State) : State :=
  post .ataCmd (fun t => arm (ataPreamble t)) s

/-- NOP (rule R131): the block's only command-level error (rule R203). -/
def ataNop (s : State) : State :=
  ataArm (fun t =>
    ataEnd { t with error := putAbrt true t.error, status := putCheck true t.status }) s

/-- SOFT_RESET (rule R132). -/
def ataSoftReset (s : State) : State := ataArm (fun t => ataEnd (softReset t)) s

/-- EXEC_DIAG (rule R135). -/
def ataExecDiag (s : State) : State := ataArm (raiseFault .ataUnsupported) s

/-- PACKET_CMD (rule R133): no interrupt. -/
def ataPacketCmd (s : State) : State :=
  ataArm (fun t =>
    { t with
      pioHead := 0
      pioSize := 12
      intreason := putIo false (putCod true t.intreason)
      status := putBsy false (putDrq true t.status)
      phase := .readAtaData }) s

/-- IDENTIFY_DEV (rule R136). -/
def ataIdentifyDev (s : State) : State := ataArm (raiseFault .ataUnsupported) s

/-- SET_FEATURES (rule R134). -/
def ataSetFeatures (s : State) : State := ataArm ataEnd s

/-- Any other command byte (rule R137). -/
def ataUnknown (_c : Byte) (s : State) : State := ataArm (raiseFault .ataUnknown) s

/-- The case of rule R130 on a decoded command byte. `decodeAta` yields ATA instructions only; the last
arm stands for the others, which no byte decodes to. -/
def ataCase (i : Instr) (s : State) : State :=
  match i with
  | .ataNop => ataNop s
  | .ataSoftReset => ataSoftReset s
  | .ataExecDiag => ataExecDiag s
  | .ataPacketCmd => ataPacketCmd s
  | .ataIdentifyDev => ataIdentifyDev s
  | .ataSetFeatures => ataSetFeatures s
  | .ataUnknown c => ataUnknown c s
  | .rdAltstatus | .wrDevctrl _ | .rdData | .wrData _ | .rdError | .wrFeatures _ | .rdIntreason
  | .wrSlot3 _ | .rdSectnum | .wrSlot4 _ | .rdBytecountLo | .wrBytecountLo _ | .rdBytecountHi
  | .wrBytecountHi _ | .rdDrvsel | .wrDrvsel _ | .rdStatus | .wrCommand _ | .dmard _ | .bind _
  | .spiTestUnit | .spiReqStat _ _ | .spiReqMode _ _ | .spiSetMode _ _ | .spiReqError _
  | .spiGetToc _ _ | .spiReqSes _ _ | .spiCdOpen | .spiCdPlay | .spiCdSeek _ | .spiCdScan
  | .spiCdRead _ _ _ _ _ _ _ | .spiCdRead2 | .spiGetScd _ _ | .spiChkSecu | .spiReqSecu
  | .spiUnknown _ => raiseFault .illegalEvent s

/-- `ata_cmd(c)` (rule R130). -/
def ataCmd (c : Byte) (s : State) : State := ataCase (decodeAta c) s

/-- NOP as one operation (rule R131). -/
def execAtaNop (s : State) : Host.Outcome State Fault Refusal := operate ataNop s

/-- SOFT_RESET as one operation (rule R132). -/
def execAtaSoftReset (s : State) : Host.Outcome State Fault Refusal := operate ataSoftReset s

/-- EXEC_DIAG as one operation (rule R135). -/
def execAtaExecDiag (s : State) : Host.Outcome State Fault Refusal := operate ataExecDiag s

/-- PACKET_CMD as one operation (rule R133). -/
def execAtaPacketCmd (s : State) : Host.Outcome State Fault Refusal := operate ataPacketCmd s

/-- IDENTIFY_DEV as one operation (rule R136). -/
def execAtaIdentifyDev (s : State) : Host.Outcome State Fault Refusal := operate ataIdentifyDev s

/-- SET_FEATURES as one operation (rule R134). -/
def execAtaSetFeatures (s : State) : Host.Outcome State Fault Refusal := operate ataSetFeatures s

/-- An unnamed command byte as one operation (rule R137). -/
def execAtaUnknown (c : Byte) (s : State) : Host.Outcome State Fault Refusal :=
  operate (ataUnknown c) s

end Sys2Proof.Machine
end

