-- ==== Sys2Proof/Machine/CdRead.lean ====
section
/-! DEFINITION. The CD-read stream sequencer (spec 44_cd_read_streaming.md rules R180 to R189) and the
drain handler that re-enters it (41_state_machine.md rule R116). -/

namespace Sys2Proof.Machine

/-- `DMA_SECTOR_BUDGET = floor(65536 / MAX_SECTOR_SIZE)` (rule R186). -/
def dmaSectorBudget : Nat := 65536 / Config.maxSectorSize

/-- `PIO_SECTOR_BUDGET` is taken equal to it (rule R186, decision D30). -/
def pioSectorBudget : Nat := dmaSectorBudget

/-- The concatenation of `n` sector reads of a bound disc, in ascending FAD order (rule R185). -/
def sectorsFrom (d : Disc) (fmt : BitVec 3) (mask : BitVec 4) (fad : Nat) : Nat → List Byte
  | 0 => []
  | n + 1 => Disc.readSector d fad fmt mask ++ sectorsFrom d fmt mask (fad + 1) n

/-- `read_sectors(fad, fmt, mask, n)` (rule R185); no disc gives no bytes (rule R187). -/
def readSectors (disc : Option Disc) (fad : Nat) (fmt : BitVec 3) (mask : BitVec 4) (n : Nat) :
    List Byte :=
  match disc with
  | none => []
  | some d => sectorsFrom d fmt mask fad n

/-- The sectors of one refill under a budget: `n = min(cdr.remaining, budget)` of them from `cdr.fad`. -/
def refillCount (budget : Nat) (s : State) : Nat := min s.cdr.remaining budget

/-- The bytes of one refill. -/
def refillBytes (budget : Nat) (s : State) : List Byte :=
  readSectors s.disc s.cdr.fad s.cdr.fmt s.cdr.mask (refillCount budget s)

/-- `cdr` advanced by `n` sectors (rules R181, R182, R189). -/
def Cdr.advance (c : Cdr) (n : Nat) : Cdr := { c with fad := c.fad + n, remaining := c.remaining - n }

/-- The effects of `cd_read_dma()` under a budget (rule R181): no register is written, no interrupt. -/
def refillDma (budget : Nat) (s : State) : State :=
  { s with
    dmaBuf := s.dmaBuf.writeRange 0 (refillBytes budget s)
    dmaSize := (refillBytes budget s).length
    dmaHead := 0
    cdr := s.cdr.advance (refillCount budget s)
    phase := .writeDmaData }

/-- The effects of `cd_read_pio()` under a budget (rule R182). -/
def refillPio (budget : Nat) (s : State) : State :=
  raiseIrq { s with
    pioBuf := s.pioBuf.writeRange 0 (refillBytes budget s)
    pioSize := (refillBytes budget s).length
    pioHead := 0
    cdr := s.cdr.advance (refillCount budget s)
    byteCount := BitVec.ofNat 16 (refillBytes budget s).length
    intreason := putIo true (putCod false s.intreason)
    status := putBsy false (putDrq true s.status)
    phase := .writeSpiData }

/-- `cd_read_dma()` (rule R181). A refill that would not fit the buffer faults before copying (rule
R53); the disc's obligation rules that out (rule R185). -/
def cdReadDma (s : State) : State :=
  if 65536 < (refillBytes dmaSectorBudget s).length then raiseFault .oversize s
  else refillDma dmaSectorBudget s

/-- `cd_read_pio()` (rule R182), with the same guard. -/
def cdReadPio (s : State) : State :=
  if 65536 < (refillBytes pioSectorBudget s).length then raiseFault .oversize s
  else refillPio pioSectorBudget s

/-- `cd_read()` (rule R180). -/
def cdRead (s : State) : State := if s.cdr.dma then cdReadDma s else cdReadPio s

/-- What a drained buffer leads to (rule R116): the next refill, or the completion. -/
def drained (s : State) : State := if 0 < s.cdr.remaining then cdRead s else spiEnd s

/-- `pio_read()` (rule R116), with the cursor already advanced (rule R49). -/
def pioRead (s : State) : State :=
  if s.phase = .writeSpiData then
    if s.pioHead = s.pioSize then drained s else s
  else if s.dmaSize ≤ s.dmaHead then drained s
  else s

end Sys2Proof.Machine
end

