-- ==== Sys2Proof/Machine/Replies.lean ====
section
/-! DEFINITION. The reply objects of the SPI commands (spec 43_spi_commands.md rules R153, R157, R159,
R161, R168, R170). -/

namespace Sys2Proof.Machine

/-- The 10-byte status reply (rule R153). -/
def statusReply (s : State) : List Byte :=
  [nibbles 0 s.driveStatus, nibbles s.discFormat 0, nibbles 0 0x4, 0x02, 0x00] ++ be24 0 ++
    [0x00, 0x00]

/-- The 10-byte error reply (rule R157). -/
def errorReply : List Byte := 0xF0 :: List.replicate 9 0x00

/-- A TOC entry: `[{ctrl, adr}] ++ be24(fad)` (rule R159). -/
def tocEntry (t : Track) : List Byte := nibbles t.ctrl t.adr :: be24 t.fad

/-- A TOC `first` or `last` slot (rule R159). -/
def tocEnd (t : Track) : List Byte :=
  [nibbles t.ctrl t.adr, BitVec.ofNat 8 t.num, Config.tocPadB2, Config.tocPadB3]

/-- An entry slot no track fills (rule R159). -/
def tocInvalid : List Byte := [0xFF, 0xFF, 0xFF, 0xFF]

/-- The loop over track numbers `t, t+1, …` (`n` of them) that fills `slot[t-1]`; `none` is the
F_BOUNDS of a number outside 1 to 99 (rule R159). -/
def tocFill (d : Disc) : Nat → Nat → List (List Byte) → Option (List (List Byte))
  | 0, _, slots => some slots
  | n + 1, t, slots =>
    if t < 1 ∨ 99 < t then none
    else tocFill d n (t + 1) (slots.set (t - 1) (tocEntry (Disc.getTrack d (t - 1))))

/-- The 408-byte TOC reply, or `none` for F_BOUNDS (rule R159). -/
def tocReply (d : Disc) (area : Bool) : Option (List Byte) :=
  let toc := Disc.getToc d area
  match tocFill d (toc.lastTrack.num + 1 - toc.firstTrack.num) toc.firstTrack.num
      (List.replicate 99 tocInvalid) with
  | none => none
  | some slots =>
    some (slots.flatten ++ tocEnd toc.firstTrack ++ tocEnd toc.lastTrack ++
      (Config.tocPadL0 :: be24 toc.leadoutFad))

/-- The `track` and `fad` of a session request, or `none` for F_BOUNDS (rule R160): session 0 asks for
the number of sessions and the last one's lead-out, session `k` for its first track. -/
def sessionQuery (d : Disc) (sessionNum : Nat) : Option (Nat × Nat) :=
  if sessionNum = 0 then
    if d.numSessions < 1 then none
    else some (d.numSessions, (Disc.getSession d (d.numSessions - 1)).leadoutFad)
  else if d.numSessions < sessionNum then none
  else
    let ft := (Disc.getSession d (sessionNum - 1)).firstTrack
    some (ft.num, ft.fad)

/-- The 6-byte session reply (rule R161). -/
def sessionReply (status : BitVec 4) (track fad : Nat) : List Byte :=
  [nibbles 0 status, 0x00, BitVec.ofNat 8 track] ++ be24 fad

/-- The subcode reply's bytes 2 and 3 (rule R168). -/
def scdLength (format : BitVec 4) : List Byte :=
  if format = 0 then [0x00, 0x64] else if format = 1 then [0x00, 0x0E] else [0x00, 0x00]

/-- The 100-byte subcode reply: byte 1 is `AST_NOSTATUS` = 0x15, zero elsewhere (rule R168). -/
def scdReply (format : BitVec 4) : List Byte :=
  [0x00, 0x15] ++ scdLength format ++ List.replicate 96 0x00

/-- `SECU_REPLY`, 126 bytes (rules R6, R170). -/
def secuReply : List Byte := (List.range 126).map Config.secuReply

end Sys2Proof.Machine
end

