-- ==== Sys2Proof/Machine/Spi.lean ====
section
/-! DEFINITION. The SPI commands (spec 43_spi_commands.md). `spiX` is what the block does when the
event SPI_CMD is posted with the packet of command X (rule R150: legal in READ_ATA_DATA only, rule
R112; preamble; the command's arm); `execSpiX` performs it as one operation. `spiCmd` is the handler a
WR DATA escalates to (rule R115). -/

namespace Sys2Proof.Machine

/-- An arm of `spi_cmd`: posted as SPI_CMD, after the preamble (rules R113, R150). -/
def spiArm (arm : State → State) (s : State) : State :=
  post .spiCmd (fun t => arm (spiPreamble t)) s

/-- `SECTNUM.status <- v; spi_end()` (rules R163 to R165). -/
def driveStatusEnd (v : BitVec 4) (s : State) : State :=
  spiEnd { s with sectnum := putDriveStatus v s.sectnum }

/-- TEST_UNIT (rule R151). -/
def spiTestUnit (s : State) : State := spiArm spiEnd s

/-- REQ_STAT (rule R152). -/
def spiReqStat (offset size : Byte) (s : State) : State :=
  spiArm (fun t => replySlice (statusReply t) offset.toNat size.toNat t) s

/-- REQ_MODE (rule R154). -/
def spiReqMode (offset size : Byte) (s : State) : State :=
  spiArm (fun t => replySlice t.hwInfo.toList offset.toNat size.toNat t) s

/-- SET_MODE (rule R155): the range is checked when it arms. -/
def spiSetMode (offset size : Byte) (s : State) : State :=
  spiArm (fun t =>
    if 32 < offset.toNat + size.toNat then raiseFault .oversize t
    else spiRead offset.toNat size.toNat t) s

/-- REQ_ERROR (rule R156). -/
def spiReqError (size : Byte) (s : State) : State :=
  spiArm (fun t => replySlice errorReply 0 size.toNat t) s

/-- GET_TOC (rule R158): no disc, then the track numbers, then the size. -/
def spiGetToc (area : Bool) (size : BitVec 16) (s : State) : State :=
  spiArm (fun t =>
    match t.disc with
    | none => raiseFault .noDisc t
    | some d =>
      match tocReply d area with
      | none => raiseFault .bounds t
      | some reply => replySlice reply 0 size.toNat t) s

/-- REQ_SES (rule R160): no disc, then the session number, then the size. -/
def spiReqSes (sessionNum size : Byte) (s : State) : State :=
  spiArm (fun t =>
    match t.disc with
    | none => raiseFault .noDisc t
    | some d =>
      match sessionQuery d sessionNum.toNat with
      | none => raiseFault .bounds t
      | some (track, fad) => replySlice (sessionReply t.driveStatus track fad) 0 size.toNat t) s

/-- CD_OPEN (rule R162). -/
def spiCdOpen (s : State) : State := spiArm (raiseFault .spiUnsupported) s

/-- CD_PLAY (rule R163). -/
def spiCdPlay (s : State) : State := spiArm (driveStatusEnd drivePause) s

/-- The drive status a CD_SEEK parameter asks for (rule R164): FAD 1, MSF 2, PAUSE 4 give PAUSE, STOP 3
gives STANDBY, any other has none. -/
def seekStatus (param : BitVec 4) : Option (BitVec 4) :=
  if param = 0x1 ∨ param = 0x2 ∨ param = 0x4 then some drivePause
  else if param = 0x3 then some driveStandby
  else none

/-- CD_SEEK (rule R164). -/
def spiCdSeek (param : BitVec 4) (s : State) : State :=
  spiArm (fun t =>
    match seekStatus param with
    | some v => driveStatusEnd v t
    | none => raiseFault .badParam t) s

/-- CD_SCAN (rule R165). -/
def spiCdScan (s : State) : State := spiArm (driveStatusEnd drivePause) s

/-- CD_READ (rule R166): loads `cdr`, sampling FEATURES.DMA once (rule R236), and enters the loop. -/
def spiCdRead (msf : Bool) (fmt : BitVec 3) (mask : BitVec 4) (a b c : Byte) (count : BitVec 24)
    (s : State) : State :=
  spiArm (fun t => cdRead { t with cdr := ⟨t.featuresDma, fmt, mask, getFad a b c msf, count.toNat⟩ }) s

/-- CD_READ2 (rule R167). -/
def spiCdRead2 (s : State) : State := spiArm (raiseFault .spiUnsupported) s

/-- GET_SCD (rule R168). -/
def spiGetScd (format : BitVec 4) (size : BitVec 16) (s : State) : State :=
  spiArm (fun t => replySlice (scdReply format) 0 size.toNat t) s

/-- CHK_SECU (rule R169). -/
def spiChkSecu (s : State) : State := spiArm spiEnd s

/-- REQ_SECU (rule R170). -/
def spiReqSecu (s : State) : State := spiArm (fun t => spiWrite secuReply 126 t) s

/-- Any other opcode (rule R171). -/
def spiUnknown (_c : Byte) (s : State) : State := spiArm (raiseFault .spiUnknown) s

/-- The case of rule R150 on a decoded packet. `decodeSpi` yields SPI instructions only; the last arm
stands for the others, which no packet decodes to. -/
def spiCase (i : Instr) (s : State) : State :=
  match i with
  | .spiTestUnit => spiTestUnit s
  | .spiReqStat offset size => spiReqStat offset size s
  | .spiReqMode offset size => spiReqMode offset size s
  | .spiSetMode offset size => spiSetMode offset size s
  | .spiReqError size => spiReqError size s
  | .spiGetToc area size => spiGetToc area size s
  | .spiReqSes sessionNum size => spiReqSes sessionNum size s
  | .spiCdOpen => spiCdOpen s
  | .spiCdPlay => spiCdPlay s
  | .spiCdSeek param => spiCdSeek param s
  | .spiCdScan => spiCdScan s
  | .spiCdRead msf fmt mask a b c count => spiCdRead msf fmt mask a b c count s
  | .spiCdRead2 => spiCdRead2 s
  | .spiGetScd format size => spiGetScd format size s
  | .spiChkSecu => spiChkSecu s
  | .spiReqSecu => spiReqSecu s
  | .spiUnknown c => spiUnknown c s
  | .rdAltstatus | .wrDevctrl _ | .rdData | .wrData _ | .rdError | .wrFeatures _ | .rdIntreason
  | .wrSlot3 _ | .rdSectnum | .wrSlot4 _ | .rdBytecountLo | .wrBytecountLo _ | .rdBytecountHi
  | .wrBytecountHi _ | .rdDrvsel | .wrDrvsel _ | .rdStatus | .wrCommand _ | .dmard _ | .bind _
  | .ataNop | .ataSoftReset | .ataExecDiag | .ataPacketCmd | .ataIdentifyDev | .ataSetFeatures
  | .ataUnknown _ => raiseFault .illegalEvent s

/-- `pio_buf[0 .. 12)` as a packet (rule R150). -/
def packetOf (m : Memory) : Packet :=
  #v[m.read 0, m.read 1, m.read 2, m.read 3, m.read 4, m.read 5,
     m.read 6, m.read 7, m.read 8, m.read 9, m.read 10, m.read 11]

/-- The SPI_CMD escalation of a completed packet (rules R115, R150): the packet is latched first. -/
def spiCmd (s : State) : State := spiCase (decodeSpi (packetOf s.pioBuf)) s

/-- `spi_data()` (rule R117), SET_MODE's completion. A range that does not fit the block faults before
copying (rule R53); SET_MODE's own check rules that out. -/
def spiData (s : State) : State :=
  if 32 < s.pioOffset + s.pioSize then raiseFault .oversize s
  else spiEnd { s with hwInfo := hwInfoWrite s.hwInfo s.pioOffset (s.pioBuf.readRange 0 s.pioSize) }

/-- TEST_UNIT as one operation (rule R151). -/
def execSpiTestUnit (s : State) : Host.Outcome State Fault Refusal := operate spiTestUnit s

/-- REQ_STAT as one operation (rule R152). -/
def execSpiReqStat (offset size : Byte) (s : State) : Host.Outcome State Fault Refusal :=
  operate (spiReqStat offset size) s

/-- REQ_MODE as one operation (rule R154). -/
def execSpiReqMode (offset size : Byte) (s : State) : Host.Outcome State Fault Refusal :=
  operate (spiReqMode offset size) s

/-- SET_MODE as one operation (rule R155). -/
def execSpiSetMode (offset size : Byte) (s : State) : Host.Outcome State Fault Refusal :=
  operate (spiSetMode offset size) s

/-- REQ_ERROR as one operation (rule R156). -/
def execSpiReqError (size : Byte) (s : State) : Host.Outcome State Fault Refusal :=
  operate (spiReqError size) s

/-- GET_TOC as one operation (rule R158). -/
def execSpiGetToc (area : Bool) (size : BitVec 16) (s : State) : Host.Outcome State Fault Refusal :=
  operate (spiGetToc area size) s

/-- REQ_SES as one operation (rule R160). -/
def execSpiReqSes (sessionNum size : Byte) (s : State) : Host.Outcome State Fault Refusal :=
  operate (spiReqSes sessionNum size) s

/-- CD_OPEN as one operation (rule R162). -/
def execSpiCdOpen (s : State) : Host.Outcome State Fault Refusal := operate spiCdOpen s

/-- CD_PLAY as one operation (rule R163). -/
def execSpiCdPlay (s : State) : Host.Outcome State Fault Refusal := operate spiCdPlay s

/-- CD_SEEK as one operation (rule R164). -/
def execSpiCdSeek (param : BitVec 4) (s : State) : Host.Outcome State Fault Refusal :=
  operate (spiCdSeek param) s

/-- CD_SCAN as one operation (rule R165). -/
def execSpiCdScan (s : State) : Host.Outcome State Fault Refusal := operate spiCdScan s

/-- CD_READ as one operation (rule R166). -/
def execSpiCdRead (msf : Bool) (fmt : BitVec 3) (mask : BitVec 4) (a b c : Byte) (count : BitVec 24)
    (s : State) : Host.Outcome State Fault Refusal :=
  operate (spiCdRead msf fmt mask a b c count) s

/-- CD_READ2 as one operation (rule R167). -/
def execSpiCdRead2 (s : State) : Host.Outcome State Fault Refusal := operate spiCdRead2 s

/-- GET_SCD as one operation (rule R168). -/
def execSpiGetScd (format : BitVec 4) (size : BitVec 16) (s : State) :
    Host.Outcome State Fault Refusal :=
  operate (spiGetScd format size) s

/-- CHK_SECU as one operation (rule R169). -/
def execSpiChkSecu (s : State) : Host.Outcome State Fault Refusal := operate spiChkSecu s

/-- REQ_SECU as one operation (rule R170). -/
def execSpiReqSecu (s : State) : Host.Outcome State Fault Refusal := operate spiReqSecu s

/-- An unnamed opcode as one operation (rule R171). -/
def execSpiUnknown (c : Byte) (s : State) : Host.Outcome State Fault Refusal :=
  operate (spiUnknown c) s

end Sys2Proof.Machine
end

