-- ==== Sys2Proof/Machine/HostOps.lean ====
section
/-! DEFINITION. The host operations (spec 40_register_access.md rules R80 to R99): register reads and
writes, the DMA read request, the disc bind. -/

namespace Sys2Proof.Machine

/-- A read that only returns a register value (rules R42, R51). -/
def readReg (value : State → Reg) (s : State) : Host.Outcome State Fault Refusal :=
  operate (fun t => answer (.word (slotWord (value t))) t) s

/-- RD ALTSTATUS (rule R80): STATUS by its second read path, `irq` untouched (rule R17). -/
def execRdAltstatus (s : State) : Host.Outcome State Fault Refusal := readReg State.status s

/-- WR DEVCTRL (rule R81): the value is discarded. -/
def execWrDevctrl (_v : Reg) (s : State) : Host.Outcome State Fault Refusal := operate id s

/-- RD DATA (rule R82): the bound first, then the event; the value is latched before the event. -/
def rdData (s : State) : State :=
  if s.pioSize < s.pioHead + 2 then raiseFault .bounds s
  else
    answer
      (.word (slotWord (dataWord (s.pioBuf.read s.pioHead) (s.pioBuf.read (s.pioHead + 1)))))
      (post .pioRead pioRead { s with pioHead := s.pioHead + 2 })

/-- RD DATA as one operation (rule R82). -/
def execRdData (s : State) : Host.Outcome State Fault Refusal := operate rdData s

/-- `pio_write()` (rule R115), with the cursor already advanced (rule R49). -/
def pioWrite (s : State) : State :=
  if s.phase = .readAtaData ∧ s.pioHead = 12 then spiCmd s
  else if s.phase = .readSpiData ∧ s.pioHead = s.pioSize then post .spiData spiData s
  else s

/-- The two bytes and the cursor of a WR DATA, before its event (rules R43, R83). -/
def storeWord (v : Reg) (s : State) : State :=
  { s with
    pioBuf := s.pioBuf.writeRange s.pioHead [lowByte v, highByte v]
    pioHead := s.pioHead + 2 }

/-- WR DATA (rule R83): the bound first, then the bytes, then the event. -/
def wrData (v : Reg) (s : State) : State :=
  if s.pioSize < s.pioHead + 2 then raiseFault .oversize s
  else post .pioWrite pioWrite (storeWord v s)

/-- WR DATA as one operation (rule R83). -/
def execWrData (v : Reg) (s : State) : Host.Outcome State Fault Refusal := operate (wrData v) s

/-- RD ERROR (rule R84). -/
def execRdError (s : State) : Host.Outcome State Fault Refusal := readReg State.error s

/-- WR FEATURES (rule R85). -/
def execWrFeatures (v : Reg) (s : State) : Host.Outcome State Fault Refusal :=
  operate (fun t => { t with features := v }) s

/-- RD INTREASON (rule R86). -/
def execRdIntreason (s : State) : Host.Outcome State Fault Refusal := readReg State.intreason s

/-- WR to slot 3 (rule R87): a fault whatever the value. -/
def execWrSlot3 (_v : Reg) (s : State) : Host.Outcome State Fault Refusal :=
  operate (raiseFault .roWrite) s

/-- RD SECTNUM (rule R88). -/
def execRdSectnum (s : State) : Host.Outcome State Fault Refusal := readReg State.sectnum s

/-- WR to slot 4 (rule R89): a fault whatever the value. -/
def execWrSlot4 (_v : Reg) (s : State) : Host.Outcome State Fault Refusal :=
  operate (raiseFault .roWrite) s

/-- RD BYTECOUNT_LO (rule R90). -/
def execRdBytecountLo (s : State) : Host.Outcome State Fault Refusal :=
  readReg (fun t => t.byteCountLo.setWidth 16) s

/-- WR BYTECOUNT_LO (rule R91): bits 7:0 of the value. -/
def execWrBytecountLo (v : Reg) (s : State) : Host.Outcome State Fault Refusal :=
  operate (fun t => { t with byteCount := putLo (lowByte v) t.byteCount }) s

/-- RD BYTECOUNT_HI (rule R92). -/
def execRdBytecountHi (s : State) : Host.Outcome State Fault Refusal :=
  readReg (fun t => t.byteCountHi.setWidth 16) s

/-- WR BYTECOUNT_HI (rule R93): bits 7:0 of the value. -/
def execWrBytecountHi (v : Reg) (s : State) : Host.Outcome State Fault Refusal :=
  operate (fun t => { t with byteCount := putHi (lowByte v) t.byteCount }) s

/-- RD DRVSEL (rule R94): 0. -/
def execRdDrvsel (s : State) : Host.Outcome State Fault Refusal := readReg (fun _ => 0) s

/-- WR DRVSEL (rule R95): the value is discarded. -/
def execWrDrvsel (_v : Reg) (s : State) : Host.Outcome State Fault Refusal := operate id s

/-- RD STATUS (rule R96): the read and the clear of `irq` are one step. -/
def execRdStatus (s : State) : Host.Outcome State Fault Refusal :=
  operate (fun t => answer (.word (slotWord t.status)) (clearIrq t)) s

/-- WR COMMAND (rule R97): posts ATA_CMD with bits 7:0. -/
def execWrCommand (v : Reg) (s : State) : Host.Outcome State Fault Refusal :=
  operate (ataCmd (commandByte v)) s

/-- How many bytes a DMA read request takes (rule R98). -/
def dmaTake (n : Nat) (s : State) : Nat := min n (s.dmaSize - s.dmaHead)

/-- DMARD (rule R98). -/
def dmard (n : Nat) (s : State) : State :=
  if s.phase ≠ .writeDmaData then raiseFault .dmaState s
  else if n < 1 then raiseFault .dmaState s
  else
    answer (.bytes (s.dmaBuf.readRange s.dmaHead (dmaTake n s)))
      (post .pioRead pioRead { s with dmaHead := s.dmaHead + dmaTake n s })

/-- DMARD as one operation (rule R98). -/
def execDmard (n : Nat) (s : State) : Host.Outcome State Fault Refusal := operate (dmard n) s

/-- BIND's effect (rule R99): the disc, then the soft reset. -/
def bindDisc (d : Option Disc) (s : State) : State := softReset { s with disc := d }

/-- BIND (rule R99). A disc outside the environment's obligation is refused (decision D42, U25). -/
def execBind (d : Option Disc) (s : State) : Host.Outcome State Fault Refusal :=
  match d with
  | none => operate (bindDisc none) s
  | some e =>
    if e.meetsObligation then operate (bindDisc (some e)) s else .refused .discOutsideObligation

end Sys2Proof.Machine
end

