-- ==== Sys2Proof/Machine/Dispatch.lean ====
section
/-! DEFINITION. The dispatch: one arm per instruction. -/

namespace Sys2Proof.Machine

/-- The meaning of every instruction. A host operation is performed as such (rules R80 to R99); an ATA
command is the operation of posting ATA_CMD with its byte (rule R130), an SPI command that of posting
SPI_CMD with its packet (rule R150), which a WR COMMAND or the sixth WR DATA of a packet does. -/
def exec (i : Instr) (s : State) : Host.Outcome State Fault Refusal :=
  match i with
  | .rdAltstatus => Sys2Proof.Machine.execRdAltstatus s
  | .wrDevctrl v => Sys2Proof.Machine.execWrDevctrl v s
  | .rdData => Sys2Proof.Machine.execRdData s
  | .wrData v => Sys2Proof.Machine.execWrData v s
  | .rdError => Sys2Proof.Machine.execRdError s
  | .wrFeatures v => Sys2Proof.Machine.execWrFeatures v s
  | .rdIntreason => Sys2Proof.Machine.execRdIntreason s
  | .wrSlot3 v => Sys2Proof.Machine.execWrSlot3 v s
  | .rdSectnum => Sys2Proof.Machine.execRdSectnum s
  | .wrSlot4 v => Sys2Proof.Machine.execWrSlot4 v s
  | .rdBytecountLo => Sys2Proof.Machine.execRdBytecountLo s
  | .wrBytecountLo v => Sys2Proof.Machine.execWrBytecountLo v s
  | .rdBytecountHi => Sys2Proof.Machine.execRdBytecountHi s
  | .wrBytecountHi v => Sys2Proof.Machine.execWrBytecountHi v s
  | .rdDrvsel => Sys2Proof.Machine.execRdDrvsel s
  | .wrDrvsel v => Sys2Proof.Machine.execWrDrvsel v s
  | .rdStatus => Sys2Proof.Machine.execRdStatus s
  | .wrCommand v => Sys2Proof.Machine.execWrCommand v s
  | .dmard n => Sys2Proof.Machine.execDmard n s
  | .bind d => Sys2Proof.Machine.execBind d s
  | .ataNop => Sys2Proof.Machine.execAtaNop s
  | .ataSoftReset => Sys2Proof.Machine.execAtaSoftReset s
  | .ataExecDiag => Sys2Proof.Machine.execAtaExecDiag s
  | .ataPacketCmd => Sys2Proof.Machine.execAtaPacketCmd s
  | .ataIdentifyDev => Sys2Proof.Machine.execAtaIdentifyDev s
  | .ataSetFeatures => Sys2Proof.Machine.execAtaSetFeatures s
  | .ataUnknown c => Sys2Proof.Machine.execAtaUnknown c s
  | .spiTestUnit => Sys2Proof.Machine.execSpiTestUnit s
  | .spiReqStat offset size => Sys2Proof.Machine.execSpiReqStat offset size s
  | .spiReqMode offset size => Sys2Proof.Machine.execSpiReqMode offset size s
  | .spiSetMode offset size => Sys2Proof.Machine.execSpiSetMode offset size s
  | .spiReqError size => Sys2Proof.Machine.execSpiReqError size s
  | .spiGetToc area size => Sys2Proof.Machine.execSpiGetToc area size s
  | .spiReqSes sessionNum size => Sys2Proof.Machine.execSpiReqSes sessionNum size s
  | .spiCdOpen => Sys2Proof.Machine.execSpiCdOpen s
  | .spiCdPlay => Sys2Proof.Machine.execSpiCdPlay s
  | .spiCdSeek param => Sys2Proof.Machine.execSpiCdSeek param s
  | .spiCdScan => Sys2Proof.Machine.execSpiCdScan s
  | .spiCdRead msf fmt mask a b c count => Sys2Proof.Machine.execSpiCdRead msf fmt mask a b c count s
  | .spiCdRead2 => Sys2Proof.Machine.execSpiCdRead2 s
  | .spiGetScd format size => Sys2Proof.Machine.execSpiGetScd format size s
  | .spiChkSecu => Sys2Proof.Machine.execSpiChkSecu s
  | .spiReqSecu => Sys2Proof.Machine.execSpiReqSecu s
  | .spiUnknown c => Sys2Proof.Machine.execSpiUnknown c s

end Sys2Proof.Machine
end

