-- ==== Sys2Proof/Machine/Fetch.lean ====
section
/-! DEFINITION. Where the next instruction comes from: the host operations the agents have yet to
perform (spec 20_memory.md rule R47), and how an instruction of each level is placed there
(30_encoding.md rules R60, R73). -/

namespace Sys2Proof.Machine

/-- The next host operation of the serialised sequence, and the state that has taken it. -/
def takeOperation (s : State) : Option (HostOp × State) :=
  match s.pending with
  | [] => none
  | op :: rest => some (op, { s with pending := rest })

/-- `s` with one more host operation in front of those pending. -/
def State.request (s : State) (op : HostOp) : State := { s with pending := op :: s.pending }

/-- A WR DATA of packet bytes `2i`, `2i+1` (rule R64). -/
def packetWrite (lo hi : Byte) : HostOp := ⟨0x11, .word (slotWord (dataWord lo hi))⟩

/-- The block after PACKET_CMD and the five WR DATA of packet bytes 0 to 9 (rule R73). -/
def afterTenPacketBytes (p : Packet) (s : State) : State :=
  { ataPacketCmd s with
    pioBuf := s.pioBuf.writeRange 0 [p[0], p[1], p[2], p[3], p[4], p[5], p[6], p[7], p[8], p[9]]
    pioHead := 10 }

/-- Where an instruction of each level stands so that the next step runs it: a host operation is the
next request; an ATA command is the WR COMMAND of its byte; an SPI packet has been written but for its
last word, and the next request is the WR DATA that completes it (log entry 10). -/
def State.withCoded (s : State) : Coded → State
  | .host op => s.request op
  | .ata c => s.request ⟨0x18, .word (c.setWidth 32)⟩
  | .spi p => (afterTenPacketBytes p s).request (packetWrite p[10] p[11])

end Sys2Proof.Machine
end

