-- ==== Sys2Proof/Machine/Step.lean ====
section
/-! DEFINITION. One step: the next host operation of the serialised sequence (spec 20_memory.md rule
R47) is decoded and performed. The block has no step of its own (00_scope.md section 4). -/

namespace Sys2Proof.Machine

/-- One step. With no host operation to perform the block stays as it is (rule R243: "the block never
takes a step of its own"; log entry 6). -/
def step (s : State) : Host.Outcome State Fault Refusal :=
  match takeOperation s with
  | none => .next s
  | some (op, t) =>
    match decodeHost op with
    | .error why => .refused (.notAnOperation why)
    | .ok i => exec i t

/-- `s` with the instruction of an opcode-table word standing where `step` takes its next instruction
(`State.withCoded` says where that is). -/
def State.withFetchWord (s : State) (nbits w : Nat) : State :=
  match tableCoded nbits w with
  | none => s
  | some c => s.withCoded c

end Sys2Proof.Machine
end

