-- ==== Sys2Proof/Safety.lean ====
section
/-! DEFINITION. What a safe run is, in the terms the statements use: the invariants that hold between
host operations (spec 10_state.md rules R26 to R29), and sequences of operations. A run that has
faulted has gone wrong (rule R201) and nothing is claimed of it. -/

namespace Sys2Proof.Machine

/-- The INTREASON and STATUS values of each phase between host operations (rules R13, R16, R27). 0x48 is
0x08 after a disc bind in the phase; in the DMA phase a bind gives 0x40 (90_conflicts.md C6). -/
def phaseRegisters : Phase → Reg → Reg → Prop
  | .readAtaCmd, intreason, status => intreason = 0x0003 ∧ (status = 0x0040 ∨ status = 0x0041)
  | .readAtaData, intreason, status => intreason = 0x0001 ∧ (status = 0x0008 ∨ status = 0x0048)
  | .readSpiData, intreason, status => intreason = 0x0000 ∧ (status = 0x0008 ∨ status = 0x0048)
  | .writeSpiData, intreason, status => intreason = 0x0002 ∧ (status = 0x0008 ∨ status = 0x0048)
  | .writeDmaData, intreason, status =>
    intreason = 0x0001 ∧ (status = 0x0080 ∨ status = 0x0040)

/-- The cursor relations of each phase (rules R71, R82, R133, R155). -/
def phaseCursors (s : State) : Prop :=
  match s.phase with
  | .readAtaCmd => True
  | .readAtaData => s.pioSize = 12 ∧ s.pioHead < 12
  | .readSpiData => s.pioOffset + s.pioSize ≤ 32
  | .writeSpiData => True
  | .writeDmaData => s.pioHead = 12 ∧ s.pioSize = 12

/-- A CD-read count is left only while its own path is streaming (rules R116, R130, R180, decision D18). -/
def streaming (s : State) : Prop :=
  (s.phase = .writeDmaData → s.cdr.dma = true) ∧
  (0 < s.cdr.remaining →
    (s.phase = .writeSpiData ∧ s.cdr.dma = false) ∨ s.phase = .writeDmaData)

/-- What holds of an unfaulted block between host operations. -/
structure State.Settled (s : State) : Prop where
  /-- R26, R27 -/
  registers : phaseRegisters s.phase s.intreason s.status
  /-- R11, R29, R203: ABRT only together with the CHECK of a NOP -/
  error : s.error = 0x0000 ∨ (s.error = 0x0004 ∧ s.status = 0x0041)
  /-- R14, R32: only PAUSE, STANDBY and NODISC are ever stored -/
  sectnum : s.sectnum.extractLsb' 8 8 = 0 ∧
    (s.driveStatus = drivePause ∨ s.driveStatus = driveStandby ∨ s.driveStatus = driveNoDisc)
  /-- R28, R46 -/
  pioCursor : s.pioHead ≤ s.pioSize ∧ s.pioSize ≤ 65536 ∧ s.pioHead % 2 = 0
  /-- R28 -/
  dmaCursor : s.dmaHead ≤ s.dmaSize ∧ s.dmaSize ≤ 65536
  cursors : phaseCursors s
  stream : streaming s
  /-- R22 -/
  count : s.cdr.remaining < 2 ^ 24
  /-- D42 -/
  disc : ∀ d, s.disc = some d → d.meetsObligation

/-- Both staging buffers are in canonical form. -/
def State.Canonical (s : State) : Prop := s.pioBuf.wf = true ∧ s.dmaBuf.wf = true

/-- The invariant of every step. -/
def State.Inv (s : State) : Prop := s.Canonical ∧ (s.faulted = none → s.Settled)

/-- The states after performing a sequence of operations, if every one has a successor state. -/
def perform : List Instr → State → Option State
  | [], s => some s
  | i :: rest, s =>
    match exec i s with
    | .next t => perform rest t
    | .fault _ => none
    | .refused _ => none

/-- A safe run: every operation has a successor and the block has not faulted at its end (rule R201: a
faulted run is "never final"). -/
def SafeRun (ops : List Instr) (s t : State) : Prop := perform ops s = some t ∧ t.faulted = none

end Sys2Proof.Machine
end

