-- ==== Sys2Proof/Certificates/Slice0/Obligations.lean ====
section
/-! DEFINITION. The statements for the provers. Each docstring names the rule of the spec it
formalises. Where a statement gives the whole next state as an update of the old one, every field the
update does not name is unchanged: that is the instruction's frame. STATUS and INTREASON are written as
masks, so that the bits no rule writes are seen to stay. -/

namespace Sys2Proof.Claims

open Sys2Proof.Machine

/-- The word of two buffer bytes, the lower index in bits 7:0, zero-extended (rules R42, R43). -/
def wordAt (m : Memory) (i : Nat) : Word := BitVec.ofNat 32 ((m.read (i + 1)).toNat * 256 + (m.read i).toNat)

/-- `m'` is `m` with `bytes` stored from index `a`: every other byte reads as before. -/
def Stored (m m' : Memory) (a : Nat) (bytes : List Byte) : Prop :=
  ∀ i, m'.read i = if a ≤ i ∧ i < a + bytes.length then bytes.getD (i - a) 0 else m.read i

/-- The concatenation of sectors `fad, fad+1, …` (`n` of them) that a bound disc delivers; nothing
without a disc (rules R185, R187). -/
def sectorBytes (disc : Option Disc) (fad : Nat) (fmt : BitVec 3) (mask : BitVec 4) (n : Nat) : List Byte :=
  match disc with
  | none => []
  | some d => (List.range n).flatMap fun k => Disc.readSector d (fad + k) fmt mask

/-- The disc's obligation (decision D42), when one is bound. -/
def DiscKeepsObligation (s : State) : Prop := ∀ d, s.disc = some d → d.meetsObligation

/-- `t` is `s` with the device-to-host PIO phase of `reply` armed (rules R150, R118; DRDY is cleared by the
preamble, rule R16 and log entry 11): nothing else of `s` is changed. -/
def Armed (s t : State) (reply : List Byte) : Prop :=
  t = { s with
    pioBuf := t.pioBuf
    pioHead := 0
    pioSize := reply.length
    byteCount := BitVec.ofNat 16 reply.length
    intreason := (s.intreason &&& 0xFFFC#16) ||| 0x0002#16
    status := (s.status &&& 0xFF37#16) ||| 0x0008#16
    cdr := { s.cdr with remaining := 0 }
    irq := true
    phase := .writeSpiData
    response := .none } ∧
  Stored s.pioBuf t.pioBuf 0 reply

/-- `t` is `s` with an SPI command completed (rules R150, R120): nothing else of `s` is changed. -/
def spiCompleted (s : State) : State :=
  { s with
    intreason := (s.intreason &&& 0xFFFC#16) ||| 0x0003#16
    status := (s.status &&& 0xFF37#16) ||| 0x0040#16
    irq := true
    phase := .readAtaCmd
    response := .none }

/-- `s` with an SPI command faulted after its preamble (rules R150, R201; it clears DRDY, rule R16 and log entry
11). -/
def spiFaulted (c : Cause) (s : State) : State :=
  { s with
    status := (s.status &&& 0xFF37#16) ||| 0x0080#16
    faulted := some c
    response := .none }

/-- Three wire bytes of a FAD, most significant first, of its low 24 bits (rule R74). -/
def fadBytes (fad : Nat) : List Byte :=
  [BitVec.ofNat 8 (fad / 65536), BitVec.ofNat 8 (fad / 256), BitVec.ofNat 8 fad]

/-- A TOC slot's first byte: `ctrl` in bits 7:4, `adr` in bits 3:0 (rule R159). -/
def trackByte (t : Track) : Byte := BitVec.ofNat 8 (t.ctrl.toNat * 16 + t.adr.toNat)

/-- The four bytes of slot `k` of a TOC reply. -/
def tocSlot (reply : List Byte) (k : Nat) : List Byte := (reply.drop (4 * k)).take 4

/-- The words that carry a list of bytes through the DATA slot, two bytes a word (rule R43). -/
def dataWords : List Byte → List Reg
  | lo :: hi :: rest => BitVec.ofNat 16 (hi.toNat * 256 + lo.toNat) :: dataWords rest
  | _ => []

/-- How many bytes of the PIO buffer, from index 0, the current phase has received or armed (rule R23): what
has been received of a packet or a payload, all of an armed reply or refill. Nothing in the idle and DMA
phases, and nothing of a faulted block, whose operations have no effect (rule R100). -/
def liveBytes (s : State) : Nat :=
  match s.faulted, s.phase with
  | some _, _ => 0
  | none, .readAtaData => s.pioHead
  | none, .readSpiData => s.pioHead
  | none, .writeSpiData => s.pioSize
  | none, .readAtaCmd => 0
  | none, .writeDmaData => 0

/-- Two states that differ at most in buffer bytes beyond the live ones. -/
def SameButStale (s t : State) : Prop :=
  t = { s with pioBuf := t.pioBuf, dmaBuf := t.dmaBuf } ∧
  (∀ i, i < liveBytes s → t.pioBuf.read i = s.pioBuf.read i) ∧
  (∀ i, i < s.dmaSize → t.dmaBuf.read i = s.dmaBuf.read i)

/-- Whether an operation reads BYTECOUNT for the host. -/
def readsByteCount (i : Instr) : Prop := i = .rdBytecountLo ∨ i = .rdBytecountHi

end Sys2Proof.Claims

open Sys2Proof Sys2Proof.Machine Sys2Proof.Claims

/-! ### Encodings and the step -/

/-- Rules R61 to R66: every well-formed instruction, of all three levels, is decoded from its encoding,
every operand at every value its encoding admits. -/
def Obligations.DecodeOfEncodeIsTheInstruction : Prop :=
  ∀ i : Instr, i.wellFormed → decode (encode i) = .ok i

/-- Rules R62, R63, R65: what is decoded is well formed (a disc is judged when it is bound); a packet
decodes to an SPI command, and nothing else does. -/
def Obligations.DecodedInstructionsAreWellFormed : Prop :=
  (∀ c i, decode c = .ok i → (∀ d, i ≠ .bind (some d)) → i.wellFormed) ∧
  (∀ p, (decodeSpi p).isSpi = true) ∧ (∀ c, (decodeAta c).isSpi = false) ∧
  (∀ op i, decodeHost op = .ok i → i.isSpi = false)

/-- Words written out from rules R61, R63, R66 and spec 95_test_vectors.md (P4, V53, V51) decode as they
say. -/
def Obligations.WrittenOutWordsDecode : Prop :=
  decode (.host ⟨0b00001#5, .absent⟩) = .ok .rdData ∧
  decode (.host ⟨0b10010#5, .word 0xFFFF0001⟩) = .ok (.wrFeatures 0x0001) ∧
  decode (.host ⟨0b01001#5, .count 65536⟩) = .ok (.dmard 65536) ∧
  decode (.ata 0xA0) = .ok .ataPacketCmd ∧
  decode (.spi #v[0x30, 0x00, 0x00, 0xB0, 0x5E, 0x00, 0x00, 0x00, 0x00, 0x00, 0x02, 0x00]) =
    .ok (.spiCdRead false 0 0 0x00 0xB0 0x5E 2) ∧
  decode (.spi #v[0x30, 0xF3, 0x00, 0xB0, 0x5E, 0x00, 0x00, 0x00, 0x00, 0x00, 0x01, 0x00]) =
    .ok (.spiCdRead true 1 0xF 0x00 0xB0 0x5E 1)

/-- Rule R62: slots 11 to 15, a write to slot 9 and a read of slot 10 are no operations of the block; that step
refuses them by name is log entry 17. -/
def Obligations.OperationsOutsideTheSlotTableAreRefused : Prop :=
  ∀ (s : State) (op : HostOp) (rest : List HostOp), s.pending = op :: rest →
    ((10 ≤ op.code.toNat ∧ op.code.toNat ≤ 15) ∨ op.code.toNat = 25 ∨ 27 ≤ op.code.toNat) →
    step s = .refused (.notAnOperation (.noSuchSlot op.code))

/-- Rules R47, R61: a step takes the next host operation of the sequence and performs the instruction it
decodes to; without one the block stays as it is (rule R243; log entry 6). -/
def Obligations.StepPerformsTheNextOperation : Prop :=
  (∀ s : State, s.pending = [] → step s = .next s) ∧
  (∀ (s : State) (op : HostOp) (rest : List HostOp) (i : Instr), s.pending = op :: rest →
    decodeHost op = .ok i → step s = exec i { s with pending := rest }) ∧
  (∀ (s : State) (op : HostOp) (rest : List HostOp) (why : Reject), s.pending = op :: rest →
    decodeHost op = .error why → step s = .refused (.notAnOperation why))

/-- Rule R97: WR COMMAND posts ATA_CMD with bits 7:0, in every state: it is the ATA command its low byte
decodes to, and it completes. -/
def Obligations.WrCommandPerformsItsAtaCommand : Prop :=
  (∀ (v : Reg) (s : State), exec (.wrCommand v) s = exec (decodeAta (v.extractLsb' 0 8)) s) ∧
  (∀ (v : Reg) (s : State), s.faulted = none → ∃ t, exec (.wrCommand v) s = .next t)

/-- Rules R64, R83, R115, R150: the sixth WR DATA after PACKET_CMD stores its two bytes and performs the
SPI command that the twelve bytes decode to. -/
def Obligations.SixthPacketWordPerformsItsSpiCommand : Prop :=
  ∀ (v : Reg) (s : State), s.faulted = none → s.phase = .readAtaData → s.pioHead = 10 →
    s.pioSize = 12 → s.pioBuf.wf = true →
    ∃ m : Memory,
      Stored s.pioBuf m 10 [v.extractLsb' 0 8, v.extractLsb' 8 8] ∧
      exec (.wrData v) s =
        exec (decodeSpi #v[s.pioBuf.read 0, s.pioBuf.read 1, s.pioBuf.read 2, s.pioBuf.read 3,
            s.pioBuf.read 4, s.pioBuf.read 5, s.pioBuf.read 6, s.pioBuf.read 7, s.pioBuf.read 8,
            s.pioBuf.read 9, v.extractLsb' 0 8, v.extractLsb' 8 8])
          { s with pioBuf := m, pioHead := 12 }

/-! ### Register accesses -/

/-- Rules R80, R84, R86, R88, R90, R92, R94: each returns its value zero-extended to 32 bits and changes
nothing else. -/
def Obligations.PlainReadsReturnTheRegisterAndChangeNothing : Prop :=
  ∀ s : State, s.faulted = none →
    exec .rdAltstatus s = .next { s with response := .word (s.status.setWidth 32) } ∧
    exec .rdError s = .next { s with response := .word (s.error.setWidth 32) } ∧
    exec .rdIntreason s = .next { s with response := .word (s.intreason.setWidth 32) } ∧
    exec .rdSectnum s = .next { s with response := .word (s.sectnum.setWidth 32) } ∧
    exec .rdBytecountLo s =
      .next { s with response := .word (BitVec.ofNat 32 (s.byteCount.toNat % 256)) } ∧
    exec .rdBytecountHi s =
      .next { s with response := .word (BitVec.ofNat 32 (s.byteCount.toNat / 256)) } ∧
    exec .rdDrvsel s = .next { s with response := .word 0 }

/-- Rule R96: RD STATUS returns STATUS and clears `irq`, and nothing else. -/
def Obligations.RdStatusReturnsStatusAndClearsIrq : Prop :=
  ∀ s : State, s.faulted = none →
    exec .rdStatus s = .next { s with irq := false, response := .word (s.status.setWidth 32) }

/-- Rules R81, R95: the value is discarded and no state changes. -/
def Obligations.WritesToDevctrlAndDrvselChangeNothing : Prop :=
  ∀ (v : Reg) (s : State), s.faulted = none →
    exec (.wrDevctrl v) s = .next { s with response := .none } ∧
    exec (.wrDrvsel v) s = .next { s with response := .none }

/-- Rule R85: all 16 bits of FEATURES are stored, and nothing else changes. -/
def Obligations.WrFeaturesStoresTheWholeValue : Prop :=
  ∀ (v : Reg) (s : State), s.faulted = none →
    exec (.wrFeatures v) s = .next { s with features := v, response := .none }

/-- Rules R91, R93: each half of BYTECOUNT takes bits 7:0 of the value and leaves the other half. -/
def Obligations.ByteCountHalvesAreWrittenSeparately : Prop :=
  ∀ (v : Reg) (s : State), s.faulted = none →
    exec (.wrBytecountLo v) s = .next { s with
      byteCount := BitVec.ofNat 16 (s.byteCount.toNat / 256 * 256 + v.toNat % 256), response := .none } ∧
    exec (.wrBytecountHi v) s = .next { s with
      byteCount := BitVec.ofNat 16 (v.toNat % 256 * 256 + s.byteCount.toNat % 256), response := .none }

/-- Rules R87, R89: a write to slot 3 or 4 raises F_RO_WRITE whatever the value, and changes nothing
else. -/
def Obligations.WritesToReadOnlySlotsFault : Prop :=
  ∀ (v : Reg) (s : State), s.faulted = none →
    exec (.wrSlot3 v) s = .next { s with faulted := some .roWrite, response := .none } ∧
    exec (.wrSlot4 v) s = .next { s with faulted := some .roWrite, response := .none }

/-! ### The data register -/

/-- Rules R82, R114, R209: RD DATA checks the bound first; an event without a handler faults after the
cursor has moved. -/
def Obligations.RdDataFaultsOutOfBoundsOrOutOfPhase : Prop :=
  ∀ s : State, s.faulted = none →
    (s.pioSize < s.pioHead + 2 →
      exec .rdData s = .next { s with faulted := some .bounds, response := .none }) ∧
    (s.pioHead + 2 ≤ s.pioSize →
      s.phase = .readAtaCmd ∨ s.phase = .readAtaData ∨ s.phase = .readSpiData →
      exec .rdData s = .next { s with
        pioHead := s.pioHead + 2, faulted := some .illegalEvent, response := .none })

/-- Rules R82, R43, R116: inside a buffer RD DATA returns the two bytes at the cursor, advances it by 2
and changes nothing else. -/
def Obligations.RdDataInsideTheBufferReturnsTheNextWord : Prop :=
  ∀ s : State, s.faulted = none → s.phase = .writeSpiData → s.pioHead + 2 < s.pioSize →
    exec .rdData s = .next { s with
      pioHead := s.pioHead + 2, response := .word (wordAt s.pioBuf s.pioHead) }

/-- Rules R116, R120: the RD DATA that takes the last word with no sectors left returns it and completes
the command. -/
def Obligations.LastRdDataCompletesTheCommand : Prop :=
  ∀ s : State, s.faulted = none → s.phase = .writeSpiData → s.pioHead + 2 = s.pioSize →
    s.cdr.remaining = 0 →
    exec .rdData s = .next { s with
      pioHead := s.pioSize
      intreason := (s.intreason &&& 0xFFFC#16) ||| 0x0003#16
      status := (s.status &&& 0xFF37#16) ||| 0x0040#16
      irq := true
      phase := .readAtaCmd
      response := .word (wordAt s.pioBuf s.pioHead) }

/-- Rules R116, R182, R183: the RD DATA that drains a PIO CD-read buffer with sectors left returns the old
buffer's last word and arms the next buffer inside the same read. -/
def Obligations.DrainingRdDataRefillsThePioBuffer : Prop :=
  ∀ s : State, s.faulted = none → s.phase = .writeSpiData → s.pioHead + 2 = s.pioSize →
    0 < s.cdr.remaining → s.cdr.dma = false → s.pioBuf.wf = true → DiscKeepsObligation s →
    ∃ t n bytes, exec .rdData s = .next t ∧
      n = min s.cdr.remaining (65536 / Config.maxSectorSize) ∧
      bytes = sectorBytes s.disc s.cdr.fad s.cdr.fmt s.cdr.mask n ∧
      Stored s.pioBuf t.pioBuf 0 bytes ∧
      t = { s with
        pioBuf := t.pioBuf
        pioHead := 0
        pioSize := bytes.length
        cdr := { s.cdr with fad := s.cdr.fad + n, remaining := s.cdr.remaining - n }
        byteCount := BitVec.ofNat 16 bytes.length
        intreason := (s.intreason &&& 0xFFFC#16) ||| 0x0002#16
        status := (s.status &&& 0xFF77#16) ||| 0x0008#16
        irq := true
        response := .word (wordAt s.pioBuf s.pioHead) }

/-- Rules R83, R114, R209: WR DATA checks the bound first; an event without a handler faults after the
two bytes are stored and the cursor has moved. -/
def Obligations.WrDataFaultsOversizeOrOutOfPhase : Prop :=
  ∀ (v : Reg) (s : State), s.faulted = none → s.pioBuf.wf = true →
    (s.pioSize < s.pioHead + 2 →
      exec (.wrData v) s = .next { s with faulted := some .oversize, response := .none }) ∧
    (s.pioHead + 2 ≤ s.pioSize →
      s.phase = .readAtaCmd ∨ s.phase = .writeSpiData ∨ s.phase = .writeDmaData →
      ∃ t, exec (.wrData v) s = .next t ∧
        Stored s.pioBuf t.pioBuf s.pioHead [v.extractLsb' 0 8, v.extractLsb' 8 8] ∧
        t = { s with
          pioBuf := t.pioBuf
          pioHead := s.pioHead + 2
          faulted := some .illegalEvent
          response := .none })

/-- Rules R83, R43, R115: below its threshold (the twelfth packet byte, the payload's size) WR DATA stores
its two bytes, low byte first, advances the cursor by 2 and changes nothing else. -/
def Obligations.WrDataBelowTheThresholdOnlyStores : Prop :=
  ∀ (v : Reg) (s : State), s.faulted = none → s.pioBuf.wf = true → s.pioHead + 2 ≤ s.pioSize →
    (s.phase = .readAtaData ∧ s.pioHead + 2 ≠ 12) ∨
      (s.phase = .readSpiData ∧ s.pioHead + 2 ≠ s.pioSize) →
    ∃ t, exec (.wrData v) s = .next t ∧
      Stored s.pioBuf t.pioBuf s.pioHead [v.extractLsb' 0 8, v.extractLsb' 8 8] ∧
      t = { s with pioBuf := t.pioBuf, pioHead := s.pioHead + 2, response := .none }

/-- Rule R117: the WR DATA that completes SET_MODE's payload copies it into the hardware-info block at
the recorded offset, leaves the other bytes of the block, and completes the command. -/
def Obligations.LastPayloadWordCopiesIntoHwInfo : Prop :=
  ∀ (v : Reg) (s : State), s.faulted = none → s.phase = .readSpiData → s.pioBuf.wf = true →
    s.pioHead + 2 = s.pioSize → s.pioOffset + s.pioSize ≤ 32 →
    ∃ t, exec (.wrData v) s = .next t ∧
      Stored s.pioBuf t.pioBuf s.pioHead [v.extractLsb' 0 8, v.extractLsb' 8 8] ∧
      (∀ i : Fin 32, t.hwInfo[i] =
        if s.pioOffset ≤ i.val ∧ i.val < s.pioOffset + s.pioSize then t.pioBuf.read (i.val - s.pioOffset)
        else s.hwInfo[i]) ∧
      t = { s with
        pioBuf := t.pioBuf
        hwInfo := t.hwInfo
        pioHead := s.pioSize
        intreason := (s.intreason &&& 0xFFFC#16) ||| 0x0003#16
        status := (s.status &&& 0xFF37#16) ||| 0x0040#16
        irq := true
        phase := .readAtaCmd
        response := .none }

/-! ### DMA read requests and disc binds -/

/-- Rule R98: DMARD outside WRITE_DMA_DATA, or for no bytes, raises F_DMA_STATE and changes nothing
else. -/
def Obligations.DmardOutsideItsPhaseOrForNothingFaults : Prop :=
  ∀ (n : Nat) (s : State), s.faulted = none → s.phase ≠ .writeDmaData ∨ n < 1 →
    exec (.dmard n) s = .next { s with faulted := some .dmaState, response := .none }

/-- Rule R98: a DMARD that does not drain the buffer returns the next `n` bytes, in buffer order, and
moves `dma_head` past them; nothing else changes. -/
def Obligations.DmardBelowTheDrainReturnsTheNextBytes : Prop :=
  ∀ (n : Nat) (s : State), s.faulted = none → s.phase = .writeDmaData → 1 ≤ n →
    s.dmaHead + n < s.dmaSize →
    exec (.dmard n) s = .next { s with
      dmaHead := s.dmaHead + n
      response := .bytes ((List.range n).map fun k => s.dmaBuf.read (s.dmaHead + k)) }

/-- Rules R98, R116, R120, R184: the DMARD that drains the buffer with no sectors left returns what is
left and completes the command, raising the only interrupt of a DMA read. -/
def Obligations.DrainingDmardCompletesTheCommand : Prop :=
  ∀ (n : Nat) (s : State), s.faulted = none → s.phase = .writeDmaData → 1 ≤ n →
    s.dmaHead ≤ s.dmaSize → s.dmaSize ≤ s.dmaHead + n → s.cdr.remaining = 0 →
    exec (.dmard n) s = .next { s with
      dmaHead := s.dmaSize
      intreason := (s.intreason &&& 0xFFFC#16) ||| 0x0003#16
      status := (s.status &&& 0xFF37#16) ||| 0x0040#16
      irq := true
      phase := .readAtaCmd
      response := .bytes ((List.range (s.dmaSize - s.dmaHead)).map fun k => s.dmaBuf.read (s.dmaHead + k)) }

/-- Rules R98, R116, R181, R184: the DMARD that drains the buffer with sectors left returns what is left
of the old buffer (a request never spans a refill) and refills silently: no register and no interrupt. -/
def Obligations.DrainingDmardRefillsSilently : Prop :=
  ∀ (n : Nat) (s : State), s.faulted = none → s.phase = .writeDmaData → 1 ≤ n →
    s.dmaHead ≤ s.dmaSize → s.dmaSize ≤ s.dmaHead + n → 0 < s.cdr.remaining → s.cdr.dma = true →
    s.dmaBuf.wf = true → DiscKeepsObligation s →
    ∃ t k bytes, exec (.dmard n) s = .next t ∧
      k = min s.cdr.remaining (65536 / Config.maxSectorSize) ∧
      bytes = sectorBytes s.disc s.cdr.fad s.cdr.fmt s.cdr.mask k ∧
      Stored s.dmaBuf t.dmaBuf 0 bytes ∧
      t = { s with
        dmaBuf := t.dmaBuf
        dmaHead := 0
        dmaSize := bytes.length
        cdr := { s.cdr with fad := s.cdr.fad + k, remaining := s.cdr.remaining - k }
        response := .bytes
          ((List.range (s.dmaSize - s.dmaHead)).map fun j => s.dmaBuf.read (s.dmaHead + j)) }

/-- Rules R99, R138, R35: BIND replaces the disc and soft-resets: ERROR, DRDY, BSY and SECTNUM, and
nothing else, in any phase and without an interrupt. -/
def Obligations.BindReplacesTheDiscAndSoftResets : Prop :=
  ∀ s : State, s.faulted = none →
    exec (.bind none) s = .next { s with
      disc := none, error := 0, status := (s.status &&& 0xFF3F#16) ||| 0x0040#16,
      sectnum := 0x0007, response := .none } ∧
    ∀ d : Disc, d.meetsObligation →
      exec (.bind (some d)) s = .next { s with
        disc := some d, error := 0, status := (s.status &&& 0xFF3F#16) ||| 0x0040#16,
        sectnum := BitVec.ofNat 16 (d.format % 16 * 16 + 1), response := .none }

/-- Decision D42 and U25: a disc whose sectors may exceed MAX_SECTOR_SIZE is refused. -/
def Obligations.BindRefusesADiscOutsideItsObligation : Prop :=
  ∀ (d : Disc) (s : State), ¬ d.meetsObligation → exec (.bind (some d)) s = .refused .discOutsideObligation

/-! ### ATA commands -/

/-- Rules R130, R131, R121: NOP sets ABRT and CHECK and completes, from any state; nothing but what the
preamble and the completion write changes. -/
def Obligations.AtaNopSetsAbrtAndCheckAndCompletes : Prop :=
  ∀ s : State, s.faulted = none →
    exec .ataNop s = .next { s with
      error := 0x0004
      status := (s.status &&& 0xFF36#16) ||| 0x0041#16
      intreason := (s.intreason &&& 0xFFFC#16) ||| 0x0003#16
      cdr := { s.cdr with remaining := 0 }
      irq := true
      phase := .readAtaCmd
      response := .none }

/-- Rules R130, R132, R134, R138, R121: SOFT_RESET re-initialises SECTNUM from the bound disc and
completes; SET_FEATURES just completes; neither changes anything else, from any state. -/
def Obligations.SoftResetAndSetFeaturesComplete : Prop :=
  ∀ s : State, s.faulted = none →
    exec .ataSetFeatures s = .next { s with
      error := 0
      status := (s.status &&& 0xFF36#16) ||| 0x0040#16
      intreason := (s.intreason &&& 0xFFFC#16) ||| 0x0003#16
      cdr := { s.cdr with remaining := 0 }
      irq := true
      phase := .readAtaCmd
      response := .none } ∧
    exec .ataSoftReset s = .next { s with
      error := 0
      status := (s.status &&& 0xFF36#16) ||| 0x0040#16
      intreason := (s.intreason &&& 0xFFFC#16) ||| 0x0003#16
      sectnum := match s.disc with
        | none => 0x0007
        | some d => BitVec.ofNat 16 (d.format % 16 * 16 + 1)
      cdr := { s.cdr with remaining := 0 }
      irq := true
      phase := .readAtaCmd
      response := .none }

/-- Rules R130, R133: PACKET_CMD arms the packet receipt, from any state, without an interrupt. -/
def Obligations.PacketCmdArmsThePacketReceipt : Prop :=
  ∀ s : State, s.faulted = none →
    exec .ataPacketCmd s = .next { s with
      error := 0
      status := (s.status &&& 0xFF36#16) ||| 0x0008#16
      intreason := (s.intreason &&& 0xFFFC#16) ||| 0x0001#16
      cdr := { s.cdr with remaining := 0 }
      pioHead := 0
      pioSize := 12
      phase := .readAtaData
      response := .none }

/-- Rules R130, R135, R136, R137: EXEC_DIAG and IDENTIFY_DEV raise F_ATA_UNSUPPORTED, any other byte
F_ATA_UNKNOWN, after the preamble and with nothing else changed. -/
def Obligations.UnsupportedAtaCommandsFault : Prop :=
  ∀ (s : State) (c : Byte), s.faulted = none →
    let faulted := fun cause : Cause => ({ s with
      error := 0
      status := (s.status &&& 0xFF36#16) ||| 0x0080#16
      cdr := { s.cdr with remaining := 0 }
      faulted := some cause
      response := .none } : State)
    exec .ataExecDiag s = .next (faulted .ataUnsupported) ∧
    exec .ataIdentifyDev s = .next (faulted .ataUnsupported) ∧
    exec (.ataUnknown c) s = .next (faulted .ataUnknown)

/-! ### SPI commands -/

/-- Rules R150, R151, R169, R120: TEST_UNIT and CHK_SECU complete and change nothing else. -/
def Obligations.NoDataCommandsComplete : Prop :=
  ∀ s : State, s.faulted = none → s.phase = .readAtaData →
    exec .spiTestUnit s = .next (spiCompleted s) ∧ exec .spiChkSecu s = .next (spiCompleted s)

/-- Rules R150, R163, R164, R165: CD_PLAY and CD_SCAN write PAUSE into SECTNUM.status, CD_SEEK writes PAUSE
or STANDBY by its parameter, the format nibble staying, and complete; any other parameter raises
F_BAD_PARAM.
That the preamble clears DRDY is log entry 11. -/
def Obligations.PlayScanAndSeekSetTheDriveStatus : Prop :=
  ∀ s : State, s.faulted = none → s.phase = .readAtaData →
    let paused : State := { spiCompleted s with sectnum := (s.sectnum &&& 0xFFF0#16) ||| 0x0001#16 }
    exec .spiCdPlay s = .next paused ∧
    exec .spiCdScan s = .next paused ∧
    ∀ param : BitVec 4,
      (param = 1 ∨ param = 2 ∨ param = 4 → exec (.spiCdSeek param) s = .next paused) ∧
      (param = 3 → exec (.spiCdSeek param) s =
        .next { spiCompleted s with sectnum := (s.sectnum &&& 0xFFF0#16) ||| 0x0002#16 }) ∧
      (param = 0 ∨ 4 < param.toNat → exec (.spiCdSeek param) s = .next (spiFaulted .badParam s))

/-- Rules R152, R153, R172, R118: REQ_STAT arms the requested slice of the ten-byte status reply, built
from SECTNUM, or raises F_OVERSIZE.
That the preamble clears DRDY is log entry 11. -/
def Obligations.ReqStatArmsTheStatusReply : Prop :=
  ∀ (offset size : Byte) (s : State), s.faulted = none → s.phase = .readAtaData → s.pioBuf.wf = true →
    let status := s.sectnum.toNat % 16
    let format := s.sectnum.toNat / 16 % 16
    let reply : List Byte :=
      [BitVec.ofNat 8 status, BitVec.ofNat 8 (format * 16), 0x04, 0x02, 0x00, 0x00, 0x00, 0x00, 0x00, 0x00]
    (offset.toNat + size.toNat ≤ 10 → ∃ t, exec (.spiReqStat offset size) s = .next t ∧
      Armed s t ((reply.drop offset.toNat).take size.toNat)) ∧
    (10 < offset.toNat + size.toNat → exec (.spiReqStat offset size) s = .next (spiFaulted .oversize s))

/-- Rules R154, R172, R118: REQ_MODE arms the requested slice of the hardware-info block, or raises
F_OVERSIZE.
That the preamble clears DRDY is log entry 11. -/
def Obligations.ReqModeArmsTheHwInfoSlice : Prop :=
  ∀ (offset size : Byte) (s : State), s.faulted = none → s.phase = .readAtaData → s.pioBuf.wf = true →
    (offset.toNat + size.toNat ≤ 32 → ∃ t, exec (.spiReqMode offset size) s = .next t ∧
      Armed s t ((s.hwInfo.toList.drop offset.toNat).take size.toNat)) ∧
    (32 < offset.toNat + size.toNat → exec (.spiReqMode offset size) s = .next (spiFaulted .oversize s))

/-- Rules R156, R157, R168, R170, R172, R118: REQ_ERROR arms the ten-byte error reply, GET_SCD the
hundred-byte subcode reply, each truncated to the requested size or faulting with F_OVERSIZE; REQ_SECU
arms the 126 bytes of SECU_REPLY.
That the preamble clears DRDY is log entry 11. -/
def Obligations.ReqErrorGetScdAndReqSecuArmTheirReplies : Prop :=
  ∀ s : State, s.faulted = none → s.phase = .readAtaData → s.pioBuf.wf = true →
    (∀ size : Byte,
      (size.toNat ≤ 10 → ∃ t, exec (.spiReqError size) s = .next t ∧
        Armed s t (([0xF0, 0, 0, 0, 0, 0, 0, 0, 0, 0] : List Byte).take size.toNat)) ∧
      (10 < size.toNat → exec (.spiReqError size) s = .next (spiFaulted .oversize s))) ∧
    (∀ (format : BitVec 4) (size : BitVec 16),
      let byte3 : Byte := if format = 0 then 0x64 else if format = 1 then 0x0E else 0x00
      (size.toNat ≤ 100 → ∃ t, exec (.spiGetScd format size) s = .next t ∧
        Armed s t (([0x00, 0x15, 0x00, byte3] ++ List.replicate 96 (0x00 : Byte)).take size.toNat)) ∧
      (100 < size.toNat → exec (.spiGetScd format size) s = .next (spiFaulted .oversize s))) ∧
    (∃ t, exec .spiReqSecu s = .next t ∧ Armed s t ((List.range 126).map Config.secuReply))

/-- Rules R158, R159, R172, R118: with a disc whose area's track numbers lie in 1 to 99, GET_TOC arms the
408-byte reply truncated to the requested size: slot `n - 1` holds track `n`'s `{ctrl, adr}` and
big-endian FAD, every other entry slot is 0xFF, slots 99 to 101 hold first, last and lead-out. A size
beyond 408 raises F_OVERSIZE.
That the preamble clears DRDY is log entry 11. -/
def Obligations.GetTocArmsTheTocReply : Prop :=
  ∀ (area : Bool) (size : BitVec 16) (s : State) (d : Disc) (toc : Toc), s.faulted = none →
    s.phase = .readAtaData → s.pioBuf.wf = true → s.disc = some d →
    toc = (if area then d.toc1 else d.toc0) →
    1 ≤ toc.firstTrack.num → toc.lastTrack.num ≤ 99 →
    (size.toNat ≤ 408 → ∃ t reply, exec (.spiGetToc area size) s = .next t ∧
      Armed s t (reply.take size.toNat) ∧ reply.length = 408 ∧
      (∀ n, 1 ≤ n → n ≤ 99 → toc.firstTrack.num ≤ n → n ≤ toc.lastTrack.num →
        tocSlot reply (n - 1) =
          trackByte (Disc.getTrack d (n - 1)) :: fadBytes (Disc.getTrack d (n - 1)).fad) ∧
      (∀ n, 1 ≤ n → n ≤ 99 → n < toc.firstTrack.num ∨ toc.lastTrack.num < n →
        tocSlot reply (n - 1) = [0xFF, 0xFF, 0xFF, 0xFF]) ∧
      tocSlot reply 99 = [trackByte toc.firstTrack, BitVec.ofNat 8 toc.firstTrack.num,
        Config.tocPadB2, Config.tocPadB3] ∧
      tocSlot reply 100 = [trackByte toc.lastTrack, BitVec.ofNat 8 toc.lastTrack.num,
        Config.tocPadB2, Config.tocPadB3] ∧
      tocSlot reply 101 = Config.tocPadL0 :: fadBytes toc.leadoutFad) ∧
    (408 < size.toNat → exec (.spiGetToc area size) s = .next (spiFaulted .oversize s))

/-- Rules R158, R159, R160, R209: without a disc GET_TOC and REQ_SES raise F_NO_DISC, whatever the size;
with one, a track number outside 1 to 99 and a session number out of range raise F_BOUNDS.
That the preamble clears DRDY is log entry 11. -/
def Obligations.TocAndSessionRequestsFaultWithoutAnAnswer : Prop :=
  ∀ s : State, s.faulted = none → s.phase = .readAtaData →
    (s.disc = none →
      (∀ area size, exec (.spiGetToc area size) s = .next (spiFaulted .noDisc s)) ∧
      (∀ session size, exec (.spiReqSes session size) s = .next (spiFaulted .noDisc s))) ∧
    ∀ d, s.disc = some d →
      (∀ (area : Bool) (size : BitVec 16) (toc : Toc), toc = (if area then d.toc1 else d.toc0) →
        toc.firstTrack.num ≤ toc.lastTrack.num →
        toc.firstTrack.num < 1 ∨ 99 < toc.lastTrack.num →
        exec (.spiGetToc area size) s = .next (spiFaulted .bounds s)) ∧
      (∀ (session size : Byte), d.numSessions < session.toNat ∨ d.numSessions = 0 →
        exec (.spiReqSes session size) s = .next (spiFaulted .bounds s))

/-- Rules R160, R161, R172, R118: REQ_SES 0 arms the number of sessions and the last session's lead-out,
REQ_SES `k` the first track of session `k` and its FAD, truncated to the requested size; a size beyond 6
raises F_OVERSIZE.
That the preamble clears DRDY is log entry 11. -/
def Obligations.ReqSesArmsTheSessionReply : Prop :=
  ∀ (session size : Byte) (s : State) (d : Disc) (track fad : Nat), s.faulted = none →
    s.phase = .readAtaData → s.pioBuf.wf = true → s.disc = some d →
    session.toNat ≤ d.numSessions → 1 ≤ d.numSessions →
    (track, fad) = (if session.toNat = 0 then
        (d.numSessions, (Disc.getSession d (d.numSessions - 1)).leadoutFad)
      else ((Disc.getSession d (session.toNat - 1)).firstTrack.num,
        (Disc.getSession d (session.toNat - 1)).firstTrack.fad)) →
    (size.toNat ≤ 6 → ∃ t, exec (.spiReqSes session size) s = .next t ∧
      Armed s t (([BitVec.ofNat 8 (s.sectnum.toNat % 16), 0x00, BitVec.ofNat 8 track] ++
        fadBytes fad).take size.toNat)) ∧
    (6 < size.toNat → exec (.spiReqSes session size) s = .next (spiFaulted .oversize s))

/-- Rules R150, R155, R172, R119: SET_MODE arms the payload receipt and leaves the hardware-info block and
the buffer alone; a range beyond the block raises F_OVERSIZE when it arms.
That the preamble clears DRDY is log entry 11. -/
def Obligations.SetModeArmsThePayloadReceipt : Prop :=
  ∀ (offset size : Byte) (s : State), s.faulted = none → s.phase = .readAtaData →
    (offset.toNat + size.toNat ≤ 32 → exec (.spiSetMode offset size) s = .next { s with
      pioHead := 0
      pioSize := size.toNat
      pioOffset := offset.toNat
      byteCount := BitVec.ofNat 16 size.toNat
      intreason := s.intreason &&& 0xFFFC#16
      status := (s.status &&& 0xFF37#16) ||| 0x0008#16
      cdr := { s.cdr with remaining := 0 }
      irq := true
      phase := .readSpiData
      response := .none }) ∧
    (32 < offset.toNat + size.toNat → exec (.spiSetMode offset size) s = .next (spiFaulted .oversize s))

/-- Rules R67, R150, R166, R182, R187: with FEATURES.DMA = 0 CD_READ loads the progress record, fills the PIO
buffer with the first sectors and arms the device-to-host phase; without a disc the phase is empty.
That the preamble clears DRDY is log entry 11. -/
def Obligations.CdReadByPioArmsTheFirstBuffer : Prop :=
  ∀ (msf : Bool) (fmt : BitVec 3) (mask : BitVec 4) (a b c : Byte) (count : BitVec 24) (s : State),
    s.faulted = none → s.phase = .readAtaData → s.features.getLsbD 0 = false → s.pioBuf.wf = true →
    DiscKeepsObligation s →
    ∃ t fad n bytes, exec (.spiCdRead msf fmt mask a b c count) s = .next t ∧
      fad = (if msf then a.toNat * 4500 + b.toNat * 75 + c.toNat
        else a.toNat * 65536 + b.toNat * 256 + c.toNat) ∧
      n = min count.toNat (65536 / Config.maxSectorSize) ∧
      bytes = sectorBytes s.disc fad fmt mask n ∧
      Stored s.pioBuf t.pioBuf 0 bytes ∧
      t = { s with
        pioBuf := t.pioBuf
        pioHead := 0
        pioSize := bytes.length
        cdr := ⟨false, fmt, mask, fad + n, count.toNat - n⟩
        byteCount := BitVec.ofNat 16 bytes.length
        intreason := (s.intreason &&& 0xFFFC#16) ||| 0x0002#16
        status := (s.status &&& 0xFF37#16) ||| 0x0008#16
        irq := true
        phase := .writeSpiData
        response := .none }

/-- Rules R67, R150, R166, R181, R187: with FEATURES.DMA = 1 CD_READ loads the progress record and fills the
DMA buffer; no interrupt, INTREASON and BYTECOUNT stay, and STATUS keeps the preamble's BSY
= 1, DRQ = 0 and DRDY = 0 (rule R16, log entry 11). -/
def Obligations.CdReadByDmaFillsTheBufferSilently : Prop :=
  ∀ (msf : Bool) (fmt : BitVec 3) (mask : BitVec 4) (a b c : Byte) (count : BitVec 24) (s : State),
    s.faulted = none → s.phase = .readAtaData → s.features.getLsbD 0 = true → s.dmaBuf.wf = true →
    DiscKeepsObligation s →
    ∃ t fad n bytes, exec (.spiCdRead msf fmt mask a b c count) s = .next t ∧
      fad = (if msf then a.toNat * 4500 + b.toNat * 75 + c.toNat
        else a.toNat * 65536 + b.toNat * 256 + c.toNat) ∧
      n = min count.toNat (65536 / Config.maxSectorSize) ∧
      bytes = sectorBytes s.disc fad fmt mask n ∧
      Stored s.dmaBuf t.dmaBuf 0 bytes ∧
      t = { s with
        dmaBuf := t.dmaBuf
        dmaHead := 0
        dmaSize := bytes.length
        cdr := ⟨true, fmt, mask, fad + n, count.toNat - n⟩
        status := (s.status &&& 0xFF37#16) ||| 0x0080#16
        phase := .writeDmaData
        response := .none }

/-- Rules R150, R162, R167, R171: CD_OPEN and CD_READ2 raise F_SPI_UNSUPPORTED, any other opcode
F_SPI_UNKNOWN, after the preamble and with nothing else changed.
That the preamble clears DRDY is log entry 11. -/
def Obligations.UnsupportedSpiCommandsFault : Prop :=
  ∀ (s : State) (c : Byte), s.faulted = none → s.phase = .readAtaData →
    exec .spiCdOpen s = .next (spiFaulted .spiUnsupported s) ∧
    exec .spiCdRead2 s = .next (spiFaulted .spiUnsupported s) ∧
    exec (.spiUnknown c) s = .next (spiFaulted .spiUnknown s)

/-- Rules R112, R114: the event SPI_CMD has no handler outside READ_ATA_DATA: every packet command faults
there before its preamble. -/
def Obligations.PacketCommandsFaultOutsideThePacketPhase : Prop :=
  ∀ (i : Instr) (s : State), i.isSpi = true → s.faulted = none → s.phase ≠ .readAtaData →
    exec i s = .next { s with faulted := some .illegalEvent, response := .none }

/-! ### Rules about the whole machine -/

/-- Rule R100: no operation of a faulted block has a successor state. -/
def Obligations.AFaultedBlockHasNoSuccessor : Prop :=
  ∀ (i : Instr) (s t : State), s.faulted ≠ none → exec i s ≠ .next t

/-- Rule R201: a fault is not reported to the host: `irq` stays, no value is returned, CHECK and ABRT are
never set by it. -/
def Obligations.AFaultIsNotReportedToTheHost : Prop :=
  ∀ (i : Instr) (s t : State), exec i s = .next t → t.faulted ≠ none →
    t.irq = s.irq ∧ t.response = .none ∧ (t.check = true → s.check = true) ∧
      (t.abrt = true → s.abrt = true)

/-- Rule R207: only RD STATUS clears `irq`. -/
def Obligations.OnlyRdStatusClearsIrq : Prop :=
  ∀ (i : Instr) (s t : State), exec i s = .next t → s.irq = true → t.irq = false → i = .rdStatus

/-- Rules R205, R210: an operation that raises `irq` leaves the block at a phase boundary, with the
register fields that tell the host which; BIND, PACKET_CMD and a fault never raise it. -/
def Obligations.IrqIsRaisedOnlyAtPhaseBoundaries : Prop :=
  ∀ (i : Instr) (s t : State), exec i s = .next t → s.irq = false → t.irq = true →
    t.faulted = none ∧ i ≠ .ataPacketCmd ∧ (∀ d, i ≠ .bind d) ∧
    ((t.phase = .readAtaCmd ∧ t.cod = true ∧ t.io = true ∧ t.drdy = true ∧ t.bsy = false ∧ t.drq = false) ∨
     (t.phase = .writeSpiData ∧ t.cod = false ∧ t.io = true ∧ t.drq = true ∧ t.bsy = false) ∨
     (t.phase = .readSpiData ∧ t.cod = false ∧ t.io = false ∧ t.drq = true ∧ t.bsy = false))

/-- Rule R29: the only rule that sets CHECK is ATA NOP. -/
def Obligations.OnlyAtaNopSetsCheck : Prop :=
  ∀ (i : Instr) (s t : State), exec i s = .next t → s.check = false → t.check = true →
    i = .ataNop ∨ ∃ v : Reg, i = .wrCommand v ∧ v.extractLsb' 0 8 = 0

/-- Rule R21: the hardware-info block is changed only by the last payload word of a SET_MODE. -/
def Obligations.OnlySetModesLastWordChangesHwInfo : Prop :=
  ∀ (i : Instr) (s t : State), exec i s = .next t → t.hwInfo ≠ s.hwInfo →
    s.phase = .readSpiData ∧ s.pioHead + 2 = s.pioSize ∧ ∃ v, i = .wrData v

/-- Rules R12, R20: FEATURES is changed only by WR FEATURES and the disc only by BIND; the operations
still to come are no instruction's to change (rule R47). -/
def Obligations.FeaturesAndDiscHaveOneWriterEach : Prop :=
  ∀ (i : Instr) (s t : State), exec i s = .next t →
    (t.features ≠ s.features → i = .wrFeatures t.features) ∧
    (t.disc ≠ s.disc → i = .bind t.disc) ∧
    t.pending = s.pending

/-- Rule R28: no operation moves a cursor back except to 0, the start of a phase. -/
def Obligations.CursorsNeverMoveBackExceptToZero : Prop :=
  ∀ (i : Instr) (s t : State), exec i s = .next t →
    (s.pioHead ≤ t.pioHead ∨ t.pioHead = 0) ∧ (s.dmaHead ≤ t.dmaHead ∨ t.dmaHead = 0)

/-- Rule R240: BYTECOUNT informs, it does not control: an operation that does not return it to the host
does the same whatever it holds. -/
def Obligations.ByteCountControlsNothing : Prop :=
  ∀ (i : Instr) (s t : State) (b : Reg), ¬ readsByteCount i → exec i s = .next t →
    ∃ c, exec i { s with byteCount := b } = .next { t with byteCount := c }

/-- Rule R23 (and R24 for the DMA buffer): bytes at or beyond what the phase has armed or received are
never observable. From a state that meets the invariant, a state that differs in nothing else takes the
same step to a state that again differs in nothing else, the value returned to the host included. -/
def Obligations.StaleBufferBytesAreNeverObserved : Prop :=
  ∀ s s' t : State, s.Inv → s'.Canonical → SameButStale s s' → step s = .next t →
    ∃ t', step s' = .next t' ∧ SameButStale t t'

/-! ### Invariants and runs -/

/-- Rules R34, R230: the tabled power-on values, which are those of the power-on procedure from any prior
contents. -/
def Obligations.PowerOnLeavesTheTabledValues : Prop :=
  ∀ (d0 : Option Disc) (s : State),
    let t := powerOnReset d0 s
    t.phase = .readAtaCmd ∧ t.error = 0x0000 ∧ t.status = 0x0040 ∧
    t.sectnum = (match d0 with
      | none => 0x0007
      | some d => BitVec.ofNat 16 (d.format % 16 * 16 + 1)) ∧
    t.intreason = 0x0003 ∧ t.features = 0x0000 ∧ t.byteCount = 0x0000 ∧ t.irq = false ∧ t.disc = d0 ∧
    (t.hwInfo.toList.drop 10 = [0x53, 0x45, 0x20, 0x20, 0x20, 0x20, 0x20, 0x20,
      0x52, 0x65, 0x76, 0x20, 0x36, 0x2E, 0x34, 0x33, 0x39, 0x39, 0x30, 0x34, 0x30, 0x38]) ∧
    (∀ k : Fin 32, k.val < 10 → t.hwInfo[k] = Config.hwInfoInitNum k.val) ∧
    t.cdr = ⟨false, 0, 0, 0, 0⟩ ∧ t.pioHead = 0 ∧ t.pioSize = 0 ∧ t.pioOffset = 0 ∧ t.dmaHead = 0 ∧
    t.dmaSize = 0 ∧ t.faulted = none ∧
    State.powerOn d0 =
      { t with pioBuf := [], dmaBuf := [], pending := [], response := .none } ∧
    State.reset = State.powerOn none

/-- The invariant holds after power-on with any disc that keeps its obligation, and at `State.reset`. -/
def Obligations.PowerOnMeetsTheInvariant : Prop :=
  (∀ d : Disc, d.meetsObligation → (State.powerOn (some d)).Inv) ∧ State.reset.Inv

/-- Rules R26 to R29 and the cursor, buffer and streaming relations: every step keeps the invariant. -/
def Obligations.EveryStepKeepsTheInvariant : Prop :=
  ∀ s t : State, s.Inv → step s = .next t → t.Inv

/-- Both staging buffers (rules R23, R24) keep their canonical form under every instruction of every level. The
form is the model's own: rule R34 (U17) leaves the contents at reset unspecified (log entry 9). -/
def Obligations.EveryInstructionKeepsTheBuffersCanonical : Prop :=
  ∀ (i : Instr) (s t : State), s.Canonical → exec i s = .next t → t.Canonical

/-- Rule R173: SET_MODE with its payload, then REQ_MODE over the same range, returns the bytes written; the
bytes of the block outside the range are unchanged, which rule R173 derives from rules R117, R154 and R155.
That the preamble clears DRDY is log entry 11. -/
def Obligations.SetModeThenReqModeReturnsTheBytesWritten : Prop :=
  ∀ (offset size : Byte) (bytes : List Byte) (s : State), s.faulted = none → s.phase = .readAtaData →
    s.pioBuf.wf = true → bytes.length = size.toNat → 0 < size.toNat → size.toNat % 2 = 0 →
    offset.toNat + size.toNat ≤ 32 →
    ∃ t, SafeRun (.spiSetMode offset size :: (dataWords bytes).map .wrData) s t ∧
      t.phase = .readAtaCmd ∧
      (∀ i : Fin 32, ¬ (offset.toNat ≤ i.val ∧ i.val < offset.toNat + size.toNat) →
        t.hwInfo[i] = s.hwInfo[i]) ∧
      ∀ u : State, u.hwInfo = t.hwInfo → u.faulted = none → u.phase = .readAtaData →
        u.pioBuf.wf = true → ∃ w, exec (.spiReqMode offset size) u = .next w ∧ Armed u w bytes

/-- Rule R188, DMA path: a DMA CD_READ performs one further refill for every budget's worth of sectors left
and completes at the drain at which none is left. -/
def Obligations.DmaReadEndsAfterAllItsRefills : Prop :=
  ∀ (s : State) (k : Nat), s.Inv → s.faulted = none → s.phase = .writeDmaData →
    k = (s.cdr.remaining + 65536 / Config.maxSectorSize - 1) / (65536 / Config.maxSectorSize) →
    (∀ j, j ≤ k → ∃ u, SafeRun (List.replicate j (.dmard 65536)) s u ∧
      u.phase = .writeDmaData ∧ u.irq = s.irq) ∧
    ∃ t, SafeRun (List.replicate (k + 1) (.dmard 65536)) s t ∧
      t.phase = .readAtaCmd ∧ t.irq = true ∧ t.cdr.remaining = 0 ∧
      t.cdr.fad = s.cdr.fad + s.cdr.remaining

/-- Rule R16: the STATUS values a host can observe are the five of its table, each in its phases, never 0x88 and
never 0xC0. 0x48, and 0x40 in the DMA phase, come from a disc bind only; after a bind in the packet phase every
DMA CD_READ still leaves 0x80 (rule R239). That the SPI preamble clears DRDY is log entry 11. -/
def Obligations.StatusShowsOnlyTheTabledValues : Prop :=
  (∀ s t : State, s.Inv → step s = .next t → t.faulted = none →
    (t.status = 0x0040 ∧ (t.phase = .readAtaCmd ∨ t.phase = .writeDmaData)) ∨
    (t.status = 0x0041 ∧ t.phase = .readAtaCmd) ∨
    (t.status = 0x0008 ∧ (t.phase = .readAtaData ∨ t.phase = .readSpiData ∨ t.phase = .writeSpiData)) ∨
    (t.status = 0x0080 ∧ t.phase = .writeDmaData) ∨
    (t.status = 0x0048 ∧ (t.phase = .readAtaData ∨ t.phase = .readSpiData ∨ t.phase = .writeSpiData))) ∧
  (∀ s t : State, s.Inv → step s = .next t → t.faulted = none →
    t.status = 0x0048 ∨ (t.status = 0x0040 ∧ t.phase = .writeDmaData) →
    (s.status = t.status ∧ s.phase = t.phase) ∨
    ∃ op rest d, s.pending = op :: rest ∧ decodeHost op = .ok (.bind d)) ∧
  (∀ (s : State) (d : Option Disc) (msf : Bool) (fmt : BitVec 3) (mask : BitVec 4) (a b c : Byte)
    (count : BitVec 24), s.Inv → s.faulted = none → s.phase = .readAtaData →
    s.features.getLsbD 0 = true → (∀ e, d = some e → e.meetsObligation) →
    ∃ t, SafeRun [.bind d, .spiCdRead msf fmt mask a b c count] s t ∧
      t.phase = .writeDmaData ∧ t.status = 0x0080)
end

