-- ==== Sys2Proof/Laws/State.lean ====
section
/-! SUPPORT. What every shared state update does to every field of the state: one lemma per field per
update, each true by unfolding the update. -/

namespace Sys2Proof.Machine.Laws

@[simp] theorem raiseFault_error (c : Cause) (s : State) : (raiseFault c s).error = s.error := rfl
@[simp] theorem raiseFault_features (c : Cause) (s : State) :
    (raiseFault c s).features = s.features := rfl
@[simp] theorem raiseFault_intreason (c : Cause) (s : State) :
    (raiseFault c s).intreason = s.intreason := rfl
@[simp] theorem raiseFault_sectnum (c : Cause) (s : State) :
    (raiseFault c s).sectnum = s.sectnum := rfl
@[simp] theorem raiseFault_byteCount (c : Cause) (s : State) :
    (raiseFault c s).byteCount = s.byteCount := rfl
@[simp] theorem raiseFault_status (c : Cause) (s : State) :
    (raiseFault c s).status = s.status := rfl
@[simp] theorem raiseFault_phase (c : Cause) (s : State) : (raiseFault c s).phase = s.phase := rfl
@[simp] theorem raiseFault_irq (c : Cause) (s : State) : (raiseFault c s).irq = s.irq := rfl
@[simp] theorem raiseFault_disc (c : Cause) (s : State) : (raiseFault c s).disc = s.disc := rfl
@[simp] theorem raiseFault_hwInfo (c : Cause) (s : State) :
    (raiseFault c s).hwInfo = s.hwInfo := rfl
@[simp] theorem raiseFault_cdr (c : Cause) (s : State) : (raiseFault c s).cdr = s.cdr := rfl
@[simp] theorem raiseFault_pioBuf (c : Cause) (s : State) :
    (raiseFault c s).pioBuf = s.pioBuf := rfl
@[simp] theorem raiseFault_pioHead (c : Cause) (s : State) :
    (raiseFault c s).pioHead = s.pioHead := rfl
@[simp] theorem raiseFault_pioSize (c : Cause) (s : State) :
    (raiseFault c s).pioSize = s.pioSize := rfl
@[simp] theorem raiseFault_pioOffset (c : Cause) (s : State) :
    (raiseFault c s).pioOffset = s.pioOffset := rfl
@[simp] theorem raiseFault_dmaBuf (c : Cause) (s : State) :
    (raiseFault c s).dmaBuf = s.dmaBuf := rfl
@[simp] theorem raiseFault_dmaHead (c : Cause) (s : State) :
    (raiseFault c s).dmaHead = s.dmaHead := rfl
@[simp] theorem raiseFault_dmaSize (c : Cause) (s : State) :
    (raiseFault c s).dmaSize = s.dmaSize := rfl
@[simp] theorem raiseFault_faulted (c : Cause) (s : State) :
    (raiseFault c s).faulted = some c := rfl
@[simp] theorem raiseFault_pending (c : Cause) (s : State) :
    (raiseFault c s).pending = s.pending := rfl
@[simp] theorem raiseFault_response (c : Cause) (s : State) :
    (raiseFault c s).response = .none := rfl

@[simp] theorem raiseIrq_error (s : State) : (raiseIrq s).error = s.error := rfl
@[simp] theorem raiseIrq_features (s : State) : (raiseIrq s).features = s.features := rfl
@[simp] theorem raiseIrq_intreason (s : State) : (raiseIrq s).intreason = s.intreason := rfl
@[simp] theorem raiseIrq_sectnum (s : State) : (raiseIrq s).sectnum = s.sectnum := rfl
@[simp] theorem raiseIrq_byteCount (s : State) : (raiseIrq s).byteCount = s.byteCount := rfl
@[simp] theorem raiseIrq_status (s : State) : (raiseIrq s).status = s.status := rfl
@[simp] theorem raiseIrq_phase (s : State) : (raiseIrq s).phase = s.phase := rfl
@[simp] theorem raiseIrq_irq (s : State) : (raiseIrq s).irq = true := rfl
@[simp] theorem raiseIrq_disc (s : State) : (raiseIrq s).disc = s.disc := rfl
@[simp] theorem raiseIrq_hwInfo (s : State) : (raiseIrq s).hwInfo = s.hwInfo := rfl
@[simp] theorem raiseIrq_cdr (s : State) : (raiseIrq s).cdr = s.cdr := rfl
@[simp] theorem raiseIrq_pioBuf (s : State) : (raiseIrq s).pioBuf = s.pioBuf := rfl
@[simp] theorem raiseIrq_pioHead (s : State) : (raiseIrq s).pioHead = s.pioHead := rfl
@[simp] theorem raiseIrq_pioSize (s : State) : (raiseIrq s).pioSize = s.pioSize := rfl
@[simp] theorem raiseIrq_pioOffset (s : State) : (raiseIrq s).pioOffset = s.pioOffset := rfl
@[simp] theorem raiseIrq_dmaBuf (s : State) : (raiseIrq s).dmaBuf = s.dmaBuf := rfl
@[simp] theorem raiseIrq_dmaHead (s : State) : (raiseIrq s).dmaHead = s.dmaHead := rfl
@[simp] theorem raiseIrq_dmaSize (s : State) : (raiseIrq s).dmaSize = s.dmaSize := rfl
@[simp] theorem raiseIrq_faulted (s : State) : (raiseIrq s).faulted = s.faulted := rfl
@[simp] theorem raiseIrq_pending (s : State) : (raiseIrq s).pending = s.pending := rfl
@[simp] theorem raiseIrq_response (s : State) : (raiseIrq s).response = s.response := rfl

@[simp] theorem clearIrq_error (s : State) : (clearIrq s).error = s.error := rfl
@[simp] theorem clearIrq_features (s : State) : (clearIrq s).features = s.features := rfl
@[simp] theorem clearIrq_intreason (s : State) : (clearIrq s).intreason = s.intreason := rfl
@[simp] theorem clearIrq_sectnum (s : State) : (clearIrq s).sectnum = s.sectnum := rfl
@[simp] theorem clearIrq_byteCount (s : State) : (clearIrq s).byteCount = s.byteCount := rfl
@[simp] theorem clearIrq_status (s : State) : (clearIrq s).status = s.status := rfl
@[simp] theorem clearIrq_phase (s : State) : (clearIrq s).phase = s.phase := rfl
@[simp] theorem clearIrq_irq (s : State) : (clearIrq s).irq = false := rfl
@[simp] theorem clearIrq_disc (s : State) : (clearIrq s).disc = s.disc := rfl
@[simp] theorem clearIrq_hwInfo (s : State) : (clearIrq s).hwInfo = s.hwInfo := rfl
@[simp] theorem clearIrq_cdr (s : State) : (clearIrq s).cdr = s.cdr := rfl
@[simp] theorem clearIrq_pioBuf (s : State) : (clearIrq s).pioBuf = s.pioBuf := rfl
@[simp] theorem clearIrq_pioHead (s : State) : (clearIrq s).pioHead = s.pioHead := rfl
@[simp] theorem clearIrq_pioSize (s : State) : (clearIrq s).pioSize = s.pioSize := rfl
@[simp] theorem clearIrq_pioOffset (s : State) : (clearIrq s).pioOffset = s.pioOffset := rfl
@[simp] theorem clearIrq_dmaBuf (s : State) : (clearIrq s).dmaBuf = s.dmaBuf := rfl
@[simp] theorem clearIrq_dmaHead (s : State) : (clearIrq s).dmaHead = s.dmaHead := rfl
@[simp] theorem clearIrq_dmaSize (s : State) : (clearIrq s).dmaSize = s.dmaSize := rfl
@[simp] theorem clearIrq_faulted (s : State) : (clearIrq s).faulted = s.faulted := rfl
@[simp] theorem clearIrq_pending (s : State) : (clearIrq s).pending = s.pending := rfl
@[simp] theorem clearIrq_response (s : State) : (clearIrq s).response = s.response := rfl

@[simp] theorem ataPreamble_error (s : State) : (ataPreamble s).error = 0 := rfl
@[simp] theorem ataPreamble_features (s : State) : (ataPreamble s).features = s.features := rfl
@[simp] theorem ataPreamble_intreason (s : State) : (ataPreamble s).intreason = s.intreason := rfl
@[simp] theorem ataPreamble_sectnum (s : State) : (ataPreamble s).sectnum = s.sectnum := rfl
@[simp] theorem ataPreamble_byteCount (s : State) : (ataPreamble s).byteCount = s.byteCount := rfl
@[simp] theorem ataPreamble_status (s : State) :
    (ataPreamble s).status = putCheck false (putDrq false (putBsy true (putDrdy false s.status))) := rfl
@[simp] theorem ataPreamble_phase (s : State) : (ataPreamble s).phase = s.phase := rfl
@[simp] theorem ataPreamble_irq (s : State) : (ataPreamble s).irq = s.irq := rfl
@[simp] theorem ataPreamble_disc (s : State) : (ataPreamble s).disc = s.disc := rfl
@[simp] theorem ataPreamble_hwInfo (s : State) : (ataPreamble s).hwInfo = s.hwInfo := rfl
@[simp] theorem ataPreamble_cdr (s : State) :
    (ataPreamble s).cdr = { s.cdr with remaining := 0 } := rfl
@[simp] theorem ataPreamble_pioBuf (s : State) : (ataPreamble s).pioBuf = s.pioBuf := rfl
@[simp] theorem ataPreamble_pioHead (s : State) : (ataPreamble s).pioHead = s.pioHead := rfl
@[simp] theorem ataPreamble_pioSize (s : State) : (ataPreamble s).pioSize = s.pioSize := rfl
@[simp] theorem ataPreamble_pioOffset (s : State) : (ataPreamble s).pioOffset = s.pioOffset := rfl
@[simp] theorem ataPreamble_dmaBuf (s : State) : (ataPreamble s).dmaBuf = s.dmaBuf := rfl
@[simp] theorem ataPreamble_dmaHead (s : State) : (ataPreamble s).dmaHead = s.dmaHead := rfl
@[simp] theorem ataPreamble_dmaSize (s : State) : (ataPreamble s).dmaSize = s.dmaSize := rfl
@[simp] theorem ataPreamble_faulted (s : State) : (ataPreamble s).faulted = s.faulted := rfl
@[simp] theorem ataPreamble_pending (s : State) : (ataPreamble s).pending = s.pending := rfl
@[simp] theorem ataPreamble_response (s : State) : (ataPreamble s).response = s.response := rfl

@[simp] theorem ataEnd_error (s : State) : (ataEnd s).error = s.error := rfl
@[simp] theorem ataEnd_features (s : State) : (ataEnd s).features = s.features := rfl
@[simp] theorem ataEnd_intreason (s : State) :
    (ataEnd s).intreason = putIo true (putCod true s.intreason) := rfl
@[simp] theorem ataEnd_sectnum (s : State) : (ataEnd s).sectnum = s.sectnum := rfl
@[simp] theorem ataEnd_byteCount (s : State) : (ataEnd s).byteCount = s.byteCount := rfl
@[simp] theorem ataEnd_status (s : State) :
    (ataEnd s).status = putBsy false (putDrdy true s.status) := rfl
@[simp] theorem ataEnd_phase (s : State) : (ataEnd s).phase = .readAtaCmd := rfl
@[simp] theorem ataEnd_irq (s : State) : (ataEnd s).irq = true := rfl
@[simp] theorem ataEnd_disc (s : State) : (ataEnd s).disc = s.disc := rfl
@[simp] theorem ataEnd_hwInfo (s : State) : (ataEnd s).hwInfo = s.hwInfo := rfl
@[simp] theorem ataEnd_cdr (s : State) : (ataEnd s).cdr = s.cdr := rfl
@[simp] theorem ataEnd_pioBuf (s : State) : (ataEnd s).pioBuf = s.pioBuf := rfl
@[simp] theorem ataEnd_pioHead (s : State) : (ataEnd s).pioHead = s.pioHead := rfl
@[simp] theorem ataEnd_pioSize (s : State) : (ataEnd s).pioSize = s.pioSize := rfl
@[simp] theorem ataEnd_pioOffset (s : State) : (ataEnd s).pioOffset = s.pioOffset := rfl
@[simp] theorem ataEnd_dmaBuf (s : State) : (ataEnd s).dmaBuf = s.dmaBuf := rfl
@[simp] theorem ataEnd_dmaHead (s : State) : (ataEnd s).dmaHead = s.dmaHead := rfl
@[simp] theorem ataEnd_dmaSize (s : State) : (ataEnd s).dmaSize = s.dmaSize := rfl
@[simp] theorem ataEnd_faulted (s : State) : (ataEnd s).faulted = s.faulted := rfl
@[simp] theorem ataEnd_pending (s : State) : (ataEnd s).pending = s.pending := rfl
@[simp] theorem ataEnd_response (s : State) : (ataEnd s).response = s.response := rfl

@[simp] theorem spiPreamble_error (s : State) : (spiPreamble s).error = s.error := rfl
@[simp] theorem spiPreamble_features (s : State) : (spiPreamble s).features = s.features := rfl
@[simp] theorem spiPreamble_intreason (s : State) : (spiPreamble s).intreason = s.intreason := rfl
@[simp] theorem spiPreamble_sectnum (s : State) : (spiPreamble s).sectnum = s.sectnum := rfl
@[simp] theorem spiPreamble_byteCount (s : State) : (spiPreamble s).byteCount = s.byteCount := rfl
@[simp] theorem spiPreamble_status (s : State) :
    (spiPreamble s).status = putBsy true (putDrq false (putDrdy false s.status)) := rfl
@[simp] theorem spiPreamble_phase (s : State) : (spiPreamble s).phase = s.phase := rfl
@[simp] theorem spiPreamble_irq (s : State) : (spiPreamble s).irq = s.irq := rfl
@[simp] theorem spiPreamble_disc (s : State) : (spiPreamble s).disc = s.disc := rfl
@[simp] theorem spiPreamble_hwInfo (s : State) : (spiPreamble s).hwInfo = s.hwInfo := rfl
@[simp] theorem spiPreamble_cdr (s : State) : (spiPreamble s).cdr = s.cdr := rfl
@[simp] theorem spiPreamble_pioBuf (s : State) : (spiPreamble s).pioBuf = s.pioBuf := rfl
@[simp] theorem spiPreamble_pioHead (s : State) : (spiPreamble s).pioHead = s.pioHead := rfl
@[simp] theorem spiPreamble_pioSize (s : State) : (spiPreamble s).pioSize = s.pioSize := rfl
@[simp] theorem spiPreamble_pioOffset (s : State) : (spiPreamble s).pioOffset = s.pioOffset := rfl
@[simp] theorem spiPreamble_dmaBuf (s : State) : (spiPreamble s).dmaBuf = s.dmaBuf := rfl
@[simp] theorem spiPreamble_dmaHead (s : State) : (spiPreamble s).dmaHead = s.dmaHead := rfl
@[simp] theorem spiPreamble_dmaSize (s : State) : (spiPreamble s).dmaSize = s.dmaSize := rfl
@[simp] theorem spiPreamble_faulted (s : State) : (spiPreamble s).faulted = s.faulted := rfl
@[simp] theorem spiPreamble_pending (s : State) : (spiPreamble s).pending = s.pending := rfl
@[simp] theorem spiPreamble_response (s : State) : (spiPreamble s).response = s.response := rfl

@[simp] theorem spiEnd_error (s : State) : (spiEnd s).error = s.error := rfl
@[simp] theorem spiEnd_features (s : State) : (spiEnd s).features = s.features := rfl
@[simp] theorem spiEnd_intreason (s : State) :
    (spiEnd s).intreason = putIo true (putCod true s.intreason) := rfl
@[simp] theorem spiEnd_sectnum (s : State) : (spiEnd s).sectnum = s.sectnum := rfl
@[simp] theorem spiEnd_byteCount (s : State) : (spiEnd s).byteCount = s.byteCount := rfl
@[simp] theorem spiEnd_status (s : State) :
    (spiEnd s).status = putDrq false (putBsy false (putDrdy true s.status)) := rfl
@[simp] theorem spiEnd_phase (s : State) : (spiEnd s).phase = .readAtaCmd := rfl
@[simp] theorem spiEnd_irq (s : State) : (spiEnd s).irq = true := rfl
@[simp] theorem spiEnd_disc (s : State) : (spiEnd s).disc = s.disc := rfl
@[simp] theorem spiEnd_hwInfo (s : State) : (spiEnd s).hwInfo = s.hwInfo := rfl
@[simp] theorem spiEnd_cdr (s : State) : (spiEnd s).cdr = s.cdr := rfl
@[simp] theorem spiEnd_pioBuf (s : State) : (spiEnd s).pioBuf = s.pioBuf := rfl
@[simp] theorem spiEnd_pioHead (s : State) : (spiEnd s).pioHead = s.pioHead := rfl
@[simp] theorem spiEnd_pioSize (s : State) : (spiEnd s).pioSize = s.pioSize := rfl
@[simp] theorem spiEnd_pioOffset (s : State) : (spiEnd s).pioOffset = s.pioOffset := rfl
@[simp] theorem spiEnd_dmaBuf (s : State) : (spiEnd s).dmaBuf = s.dmaBuf := rfl
@[simp] theorem spiEnd_dmaHead (s : State) : (spiEnd s).dmaHead = s.dmaHead := rfl
@[simp] theorem spiEnd_dmaSize (s : State) : (spiEnd s).dmaSize = s.dmaSize := rfl
@[simp] theorem spiEnd_faulted (s : State) : (spiEnd s).faulted = s.faulted := rfl
@[simp] theorem spiEnd_pending (s : State) : (spiEnd s).pending = s.pending := rfl
@[simp] theorem spiEnd_response (s : State) : (spiEnd s).response = s.response := rfl

@[simp] theorem armPioOut_error (payload : List Byte) (size : Nat) (s : State) :
    (armPioOut payload size s).error = s.error := rfl
@[simp] theorem armPioOut_features (payload : List Byte) (size : Nat) (s : State) :
    (armPioOut payload size s).features = s.features := rfl
@[simp] theorem armPioOut_intreason (payload : List Byte) (size : Nat) (s : State) :
    (armPioOut payload size s).intreason = putIo true (putCod false s.intreason) := rfl
@[simp] theorem armPioOut_sectnum (payload : List Byte) (size : Nat) (s : State) :
    (armPioOut payload size s).sectnum = s.sectnum := rfl
@[simp] theorem armPioOut_byteCount (payload : List Byte) (size : Nat) (s : State) :
    (armPioOut payload size s).byteCount = BitVec.ofNat 16 size := rfl
@[simp] theorem armPioOut_status (payload : List Byte) (size : Nat) (s : State) :
    (armPioOut payload size s).status = putBsy false (putDrq true s.status) := rfl
@[simp] theorem armPioOut_phase (payload : List Byte) (size : Nat) (s : State) :
    (armPioOut payload size s).phase = .writeSpiData := rfl
@[simp] theorem armPioOut_irq (payload : List Byte) (size : Nat) (s : State) :
    (armPioOut payload size s).irq = true := rfl
@[simp] theorem armPioOut_disc (payload : List Byte) (size : Nat) (s : State) :
    (armPioOut payload size s).disc = s.disc := rfl
@[simp] theorem armPioOut_hwInfo (payload : List Byte) (size : Nat) (s : State) :
    (armPioOut payload size s).hwInfo = s.hwInfo := rfl
@[simp] theorem armPioOut_cdr (payload : List Byte) (size : Nat) (s : State) :
    (armPioOut payload size s).cdr = { s.cdr with remaining := 0 } := rfl
@[simp] theorem armPioOut_pioBuf (payload : List Byte) (size : Nat) (s : State) :
    (armPioOut payload size s).pioBuf = s.pioBuf.writeRange 0 (payload.take size) := rfl
@[simp] theorem armPioOut_pioHead (payload : List Byte) (size : Nat) (s : State) :
    (armPioOut payload size s).pioHead = 0 := rfl
@[simp] theorem armPioOut_pioSize (payload : List Byte) (size : Nat) (s : State) :
    (armPioOut payload size s).pioSize = size := rfl
@[simp] theorem armPioOut_pioOffset (payload : List Byte) (size : Nat) (s : State) :
    (armPioOut payload size s).pioOffset = s.pioOffset := rfl
@[simp] theorem armPioOut_dmaBuf (payload : List Byte) (size : Nat) (s : State) :
    (armPioOut payload size s).dmaBuf = s.dmaBuf := rfl
@[simp] theorem armPioOut_dmaHead (payload : List Byte) (size : Nat) (s : State) :
    (armPioOut payload size s).dmaHead = s.dmaHead := rfl
@[simp] theorem armPioOut_dmaSize (payload : List Byte) (size : Nat) (s : State) :
    (armPioOut payload size s).dmaSize = s.dmaSize := rfl
@[simp] theorem armPioOut_faulted (payload : List Byte) (size : Nat) (s : State) :
    (armPioOut payload size s).faulted = s.faulted := rfl
@[simp] theorem armPioOut_pending (payload : List Byte) (size : Nat) (s : State) :
    (armPioOut payload size s).pending = s.pending := rfl
@[simp] theorem armPioOut_response (payload : List Byte) (size : Nat) (s : State) :
    (armPioOut payload size s).response = s.response := rfl

@[simp] theorem spiRead_error (offset size : Nat) (s : State) :
    (spiRead offset size s).error = s.error := rfl
@[simp] theorem spiRead_features (offset size : Nat) (s : State) :
    (spiRead offset size s).features = s.features := rfl
@[simp] theorem spiRead_intreason (offset size : Nat) (s : State) :
    (spiRead offset size s).intreason = putIo false (putCod false s.intreason) := rfl
@[simp] theorem spiRead_sectnum (offset size : Nat) (s : State) :
    (spiRead offset size s).sectnum = s.sectnum := rfl
@[simp] theorem spiRead_byteCount (offset size : Nat) (s : State) :
    (spiRead offset size s).byteCount = BitVec.ofNat 16 size := rfl
@[simp] theorem spiRead_status (offset size : Nat) (s : State) :
    (spiRead offset size s).status = putBsy false (putDrq true s.status) := rfl
@[simp] theorem spiRead_phase (offset size : Nat) (s : State) :
    (spiRead offset size s).phase = .readSpiData := rfl
@[simp] theorem spiRead_irq (offset size : Nat) (s : State) :
    (spiRead offset size s).irq = true := rfl
@[simp] theorem spiRead_disc (offset size : Nat) (s : State) :
    (spiRead offset size s).disc = s.disc := rfl
@[simp] theorem spiRead_hwInfo (offset size : Nat) (s : State) :
    (spiRead offset size s).hwInfo = s.hwInfo := rfl
@[simp] theorem spiRead_cdr (offset size : Nat) (s : State) :
    (spiRead offset size s).cdr = { s.cdr with remaining := 0 } := rfl
@[simp] theorem spiRead_pioBuf (offset size : Nat) (s : State) :
    (spiRead offset size s).pioBuf = s.pioBuf := rfl
@[simp] theorem spiRead_pioHead (offset size : Nat) (s : State) :
    (spiRead offset size s).pioHead = 0 := rfl
@[simp] theorem spiRead_pioSize (offset size : Nat) (s : State) :
    (spiRead offset size s).pioSize = size := rfl
@[simp] theorem spiRead_pioOffset (offset size : Nat) (s : State) :
    (spiRead offset size s).pioOffset = offset := rfl
@[simp] theorem spiRead_dmaBuf (offset size : Nat) (s : State) :
    (spiRead offset size s).dmaBuf = s.dmaBuf := rfl
@[simp] theorem spiRead_dmaHead (offset size : Nat) (s : State) :
    (spiRead offset size s).dmaHead = s.dmaHead := rfl
@[simp] theorem spiRead_dmaSize (offset size : Nat) (s : State) :
    (spiRead offset size s).dmaSize = s.dmaSize := rfl
@[simp] theorem spiRead_faulted (offset size : Nat) (s : State) :
    (spiRead offset size s).faulted = s.faulted := rfl
@[simp] theorem spiRead_pending (offset size : Nat) (s : State) :
    (spiRead offset size s).pending = s.pending := rfl
@[simp] theorem spiRead_response (offset size : Nat) (s : State) :
    (spiRead offset size s).response = s.response := rfl

@[simp] theorem softReset_error (s : State) : (softReset s).error = 0 := rfl
@[simp] theorem softReset_features (s : State) : (softReset s).features = s.features := rfl
@[simp] theorem softReset_intreason (s : State) : (softReset s).intreason = s.intreason := rfl
@[simp] theorem softReset_byteCount (s : State) : (softReset s).byteCount = s.byteCount := rfl
@[simp] theorem softReset_status (s : State) :
    (softReset s).status = putBsy false (putDrdy true s.status) := rfl
@[simp] theorem softReset_phase (s : State) : (softReset s).phase = s.phase := rfl
@[simp] theorem softReset_irq (s : State) : (softReset s).irq = s.irq := rfl
@[simp] theorem softReset_disc (s : State) : (softReset s).disc = s.disc := rfl
@[simp] theorem softReset_hwInfo (s : State) : (softReset s).hwInfo = s.hwInfo := rfl
@[simp] theorem softReset_cdr (s : State) : (softReset s).cdr = s.cdr := rfl
@[simp] theorem softReset_pioBuf (s : State) : (softReset s).pioBuf = s.pioBuf := rfl
@[simp] theorem softReset_pioHead (s : State) : (softReset s).pioHead = s.pioHead := rfl
@[simp] theorem softReset_pioSize (s : State) : (softReset s).pioSize = s.pioSize := rfl
@[simp] theorem softReset_pioOffset (s : State) : (softReset s).pioOffset = s.pioOffset := rfl
@[simp] theorem softReset_dmaBuf (s : State) : (softReset s).dmaBuf = s.dmaBuf := rfl
@[simp] theorem softReset_dmaHead (s : State) : (softReset s).dmaHead = s.dmaHead := rfl
@[simp] theorem softReset_dmaSize (s : State) : (softReset s).dmaSize = s.dmaSize := rfl
@[simp] theorem softReset_faulted (s : State) : (softReset s).faulted = s.faulted := rfl
@[simp] theorem softReset_pending (s : State) : (softReset s).pending = s.pending := rfl
@[simp] theorem softReset_response (s : State) : (softReset s).response = s.response := rfl

@[simp] theorem refillDma_error (budget : Nat) (s : State) :
    (refillDma budget s).error = s.error := rfl
@[simp] theorem refillDma_features (budget : Nat) (s : State) :
    (refillDma budget s).features = s.features := rfl
@[simp] theorem refillDma_intreason (budget : Nat) (s : State) :
    (refillDma budget s).intreason = s.intreason := rfl
@[simp] theorem refillDma_sectnum (budget : Nat) (s : State) :
    (refillDma budget s).sectnum = s.sectnum := rfl
@[simp] theorem refillDma_byteCount (budget : Nat) (s : State) :
    (refillDma budget s).byteCount = s.byteCount := rfl
@[simp] theorem refillDma_status (budget : Nat) (s : State) :
    (refillDma budget s).status = s.status := rfl
@[simp] theorem refillDma_phase (budget : Nat) (s : State) :
    (refillDma budget s).phase = .writeDmaData := rfl
@[simp] theorem refillDma_irq (budget : Nat) (s : State) : (refillDma budget s).irq = s.irq := rfl
@[simp] theorem refillDma_disc (budget : Nat) (s : State) :
    (refillDma budget s).disc = s.disc := rfl
@[simp] theorem refillDma_hwInfo (budget : Nat) (s : State) :
    (refillDma budget s).hwInfo = s.hwInfo := rfl
@[simp] theorem refillDma_cdr (budget : Nat) (s : State) :
    (refillDma budget s).cdr = s.cdr.advance (refillCount budget s) := rfl
@[simp] theorem refillDma_pioBuf (budget : Nat) (s : State) :
    (refillDma budget s).pioBuf = s.pioBuf := rfl
@[simp] theorem refillDma_pioHead (budget : Nat) (s : State) :
    (refillDma budget s).pioHead = s.pioHead := rfl
@[simp] theorem refillDma_pioSize (budget : Nat) (s : State) :
    (refillDma budget s).pioSize = s.pioSize := rfl
@[simp] theorem refillDma_pioOffset (budget : Nat) (s : State) :
    (refillDma budget s).pioOffset = s.pioOffset := rfl
@[simp] theorem refillDma_dmaBuf (budget : Nat) (s : State) :
    (refillDma budget s).dmaBuf = s.dmaBuf.writeRange 0 (refillBytes budget s) := rfl
@[simp] theorem refillDma_dmaHead (budget : Nat) (s : State) :
    (refillDma budget s).dmaHead = 0 := rfl
@[simp] theorem refillDma_dmaSize (budget : Nat) (s : State) :
    (refillDma budget s).dmaSize = (refillBytes budget s).length := rfl
@[simp] theorem refillDma_faulted (budget : Nat) (s : State) :
    (refillDma budget s).faulted = s.faulted := rfl
@[simp] theorem refillDma_pending (budget : Nat) (s : State) :
    (refillDma budget s).pending = s.pending := rfl
@[simp] theorem refillDma_response (budget : Nat) (s : State) :
    (refillDma budget s).response = s.response := rfl

@[simp] theorem refillPio_error (budget : Nat) (s : State) :
    (refillPio budget s).error = s.error := rfl
@[simp] theorem refillPio_features (budget : Nat) (s : State) :
    (refillPio budget s).features = s.features := rfl
@[simp] theorem refillPio_intreason (budget : Nat) (s : State) :
    (refillPio budget s).intreason = putIo true (putCod false s.intreason) := rfl
@[simp] theorem refillPio_sectnum (budget : Nat) (s : State) :
    (refillPio budget s).sectnum = s.sectnum := rfl
@[simp] theorem refillPio_byteCount (budget : Nat) (s : State) :
    (refillPio budget s).byteCount = BitVec.ofNat 16 (refillBytes budget s).length := rfl
@[simp] theorem refillPio_status (budget : Nat) (s : State) :
    (refillPio budget s).status = putBsy false (putDrq true s.status) := rfl
@[simp] theorem refillPio_phase (budget : Nat) (s : State) :
    (refillPio budget s).phase = .writeSpiData := rfl
@[simp] theorem refillPio_irq (budget : Nat) (s : State) : (refillPio budget s).irq = true := rfl
@[simp] theorem refillPio_disc (budget : Nat) (s : State) :
    (refillPio budget s).disc = s.disc := rfl
@[simp] theorem refillPio_hwInfo (budget : Nat) (s : State) :
    (refillPio budget s).hwInfo = s.hwInfo := rfl
@[simp] theorem refillPio_cdr (budget : Nat) (s : State) :
    (refillPio budget s).cdr = s.cdr.advance (refillCount budget s) := rfl
@[simp] theorem refillPio_pioBuf (budget : Nat) (s : State) :
    (refillPio budget s).pioBuf = s.pioBuf.writeRange 0 (refillBytes budget s) := rfl
@[simp] theorem refillPio_pioHead (budget : Nat) (s : State) :
    (refillPio budget s).pioHead = 0 := rfl
@[simp] theorem refillPio_pioSize (budget : Nat) (s : State) :
    (refillPio budget s).pioSize = (refillBytes budget s).length := rfl
@[simp] theorem refillPio_pioOffset (budget : Nat) (s : State) :
    (refillPio budget s).pioOffset = s.pioOffset := rfl
@[simp] theorem refillPio_dmaBuf (budget : Nat) (s : State) :
    (refillPio budget s).dmaBuf = s.dmaBuf := rfl
@[simp] theorem refillPio_dmaHead (budget : Nat) (s : State) :
    (refillPio budget s).dmaHead = s.dmaHead := rfl
@[simp] theorem refillPio_dmaSize (budget : Nat) (s : State) :
    (refillPio budget s).dmaSize = s.dmaSize := rfl
@[simp] theorem refillPio_faulted (budget : Nat) (s : State) :
    (refillPio budget s).faulted = s.faulted := rfl
@[simp] theorem refillPio_pending (budget : Nat) (s : State) :
    (refillPio budget s).pending = s.pending := rfl
@[simp] theorem refillPio_response (budget : Nat) (s : State) :
    (refillPio budget s).response = s.response := rfl

@[simp] theorem storeWord_error (v : Reg) (s : State) : (storeWord v s).error = s.error := rfl
@[simp] theorem storeWord_features (v : Reg) (s : State) :
    (storeWord v s).features = s.features := rfl
@[simp] theorem storeWord_intreason (v : Reg) (s : State) :
    (storeWord v s).intreason = s.intreason := rfl
@[simp] theorem storeWord_sectnum (v : Reg) (s : State) : (storeWord v s).sectnum = s.sectnum := rfl
@[simp] theorem storeWord_byteCount (v : Reg) (s : State) :
    (storeWord v s).byteCount = s.byteCount := rfl
@[simp] theorem storeWord_status (v : Reg) (s : State) : (storeWord v s).status = s.status := rfl
@[simp] theorem storeWord_phase (v : Reg) (s : State) : (storeWord v s).phase = s.phase := rfl
@[simp] theorem storeWord_irq (v : Reg) (s : State) : (storeWord v s).irq = s.irq := rfl
@[simp] theorem storeWord_disc (v : Reg) (s : State) : (storeWord v s).disc = s.disc := rfl
@[simp] theorem storeWord_hwInfo (v : Reg) (s : State) : (storeWord v s).hwInfo = s.hwInfo := rfl
@[simp] theorem storeWord_cdr (v : Reg) (s : State) : (storeWord v s).cdr = s.cdr := rfl
@[simp] theorem storeWord_pioBuf (v : Reg) (s : State) :
    (storeWord v s).pioBuf = s.pioBuf.writeRange s.pioHead [lowByte v, highByte v] := rfl
@[simp] theorem storeWord_pioHead (v : Reg) (s : State) :
    (storeWord v s).pioHead = s.pioHead + 2 := rfl
@[simp] theorem storeWord_pioSize (v : Reg) (s : State) : (storeWord v s).pioSize = s.pioSize := rfl
@[simp] theorem storeWord_pioOffset (v : Reg) (s : State) :
    (storeWord v s).pioOffset = s.pioOffset := rfl
@[simp] theorem storeWord_dmaBuf (v : Reg) (s : State) : (storeWord v s).dmaBuf = s.dmaBuf := rfl
@[simp] theorem storeWord_dmaHead (v : Reg) (s : State) : (storeWord v s).dmaHead = s.dmaHead := rfl
@[simp] theorem storeWord_dmaSize (v : Reg) (s : State) : (storeWord v s).dmaSize = s.dmaSize := rfl
@[simp] theorem storeWord_faulted (v : Reg) (s : State) : (storeWord v s).faulted = s.faulted := rfl
@[simp] theorem storeWord_pending (v : Reg) (s : State) : (storeWord v s).pending = s.pending := rfl
@[simp] theorem storeWord_response (v : Reg) (s : State) :
    (storeWord v s).response = s.response := rfl

/-- SECTNUM after a soft reset with a disc bound (rule R138). -/
theorem softReset_sectnum_some (s : State) (d : Disc) (h : s.disc = some d) :
    (softReset s).sectnum = putFormat (BitVec.ofNat 4 d.format) (putDriveStatus drivePause 0) := by
  simp [softReset, h]

/-- SECTNUM after a soft reset without a disc (rule R138). -/
theorem softReset_sectnum_none (s : State) (h : s.disc = none) :
    (softReset s).sectnum = putDriveStatus driveNoDisc 0 := by
  simp [softReset, h]

end Sys2Proof.Machine.Laws
end

