-- ==== Sys2Proof/Laws/Disc.lean ====
section
/-! SUPPORT. The bounds of the open parameter MAX_SECTOR_SIZE, and that a disc meeting its obligation
never overflows a staging buffer (spec 44_cd_read_streaming.md rules R185, R186). -/

namespace Sys2Proof.Machine.Laws

theorem one_le_maxSectorSize : 1 ≤ Config.maxSectorSize := by
  unfold Config.maxSectorSize; omega

theorem maxSectorSize_le : Config.maxSectorSize ≤ 65535 := by
  unfold Config.maxSectorSize; omega

/-- "A budget is at least 1" (rule R186). -/
theorem one_le_dmaSectorBudget : 1 ≤ dmaSectorBudget := by
  unfold dmaSectorBudget
  have := one_le_maxSectorSize
  have := maxSectorSize_le
  exact (Nat.one_le_div_iff (by omega)).mpr (by omega)

theorem one_le_pioSectorBudget : 1 ≤ pioSectorBudget := one_le_dmaSectorBudget

theorem dmaSectorBudget_mul : dmaSectorBudget * Config.maxSectorSize ≤ 65536 :=
  Nat.div_mul_le_self _ _

/-- A sector of a disc that meets its obligation (decision D42). -/
theorem readSector_length {d : Disc} (h : d.meetsObligation) (fad : Nat) (fmt : BitVec 3)
    (mask : BitVec 4) : (Disc.readSector d fad fmt mask).length ≤ Config.maxSectorSize := by
  unfold Disc.readSector
  split
  · rename_i x hx; exact h.2 x (List.mem_of_find?_eq_some hx)
  · exact h.1

/-- `n` sectors of such a disc. -/
theorem sectorsFrom_length {d : Disc} (h : d.meetsObligation) (fmt : BitVec 3) (mask : BitVec 4)
    (fad n : Nat) : (sectorsFrom d fmt mask fad n).length ≤ n * Config.maxSectorSize := by
  induction n generalizing fad with
  | zero => simp [sectorsFrom]
  | succ n ih =>
    have h1 := readSector_length h fad fmt mask
    have h2 := ih (fad + 1)
    simp only [sectorsFrom, List.length_append, Nat.succ_mul]
    omega

/-- A refill always fits the staging buffer (rule R185). -/
theorem refillBytes_length {s : State} (h : ∀ d, s.disc = some d → d.meetsObligation) :
    (refillBytes dmaSectorBudget s).length ≤ 65536 := by
  unfold refillBytes readSectors
  split
  · simp
  · rename_i d hd
    calc (sectorsFrom d s.cdr.fmt s.cdr.mask s.cdr.fad (refillCount dmaSectorBudget s)).length
        ≤ refillCount dmaSectorBudget s * Config.maxSectorSize := sectorsFrom_length (h d hd) _ _ _ _
      _ ≤ dmaSectorBudget * Config.maxSectorSize :=
        Nat.mul_le_mul_right _ (by unfold refillCount; omega)
      _ ≤ 65536 := dmaSectorBudget_mul

/-- Without a disc a refill is empty (rule R187). -/
theorem refillBytes_noDisc (budget : Nat) {s : State} (h : s.disc = none) :
    refillBytes budget s = [] := by
  simp [refillBytes, readSectors, h]

end Sys2Proof.Machine.Laws
end

