-- ==== Sys2Proof/Laws/Exec.lean ====
section
/-! SUPPORT. Everything the shared operations can do, said once: `operate` and `answer` around every
instruction, `post` around every handler, `replySlice` under every sliced reply, `step` around `exec`. -/

namespace Sys2Proof.Machine.Laws

/-- On an unfaulted block an operation performs its effect. -/
theorem operate_ready (f : State → State) {s : State} (h : s.faulted = none) :
    operate f s = .next (f { s with response := .none }) := by
  simp [operate, h]

/-- On a faulted block an operation stops (rule R100). -/
theorem operate_faulted (f : State → State) {s : State} {c : Cause} (h : s.faulted = some c) :
    operate f s = .fault (.blockFaulted c) := by
  simp [operate, h]

/-- If an operation answers a next state, the block was not faulted and this is its effect. -/
theorem operate_next {f : State → State} {s t : State} (h : operate f s = .next t) :
    s.faulted = none ∧ t = f { s with response := .none } := by
  unfold operate at h
  split at h
  · cases h
  · rename_i hf
    cases h
    exact ⟨hf, rfl⟩

/-- An answer on an unfaulted state. -/
theorem answer_ready (r : Response) {s : State} (h : s.faulted = none) :
    answer r s = { s with response := r } := by
  simp [answer, h]

/-- A faulted operation answers nothing (rule R201). -/
theorem answer_faulted (r : Response) {s : State} {c : Cause} (h : s.faulted = some c) :
    answer r s = s := by
  simp [answer, h]

/-- An answer changes the response and nothing else. -/
theorem answer_cases (r : Response) (s : State) :
    (s.faulted = none ∧ answer r s = { s with response := r }) ∨
      (s.faulted ≠ none ∧ answer r s = s) := by
  by_cases h : s.faulted = none
  · exact .inl ⟨h, answer_ready r h⟩
  · obtain ⟨c, hc⟩ := Option.ne_none_iff_exists'.mp h
    exact .inr ⟨h, answer_faulted r hc⟩

/-- A legal event runs its handler (rule R113). -/
theorem post_legal {e : Event} (f : State → State) {s : State} (h : handles s.phase e = true) :
    post e f s = f s := by
  simp [post, h]

/-- An illegal event faults (rule R114). -/
theorem post_illegal {e : Event} (f : State → State) {s : State} (h : handles s.phase e = false) :
    post e f s = raiseFault .illegalEvent s := by
  simp [post, h]

/-- An ATA command is legal in every state (rule R112). -/
theorem ataCmd_legal (p : Phase) : handles p .ataCmd = true := by
  cases p <;> rfl

/-- A packet command is legal in READ_ATA_DATA only (rule R112). -/
theorem spiCmd_legal (p : Phase) : handles p .spiCmd = true ↔ p = .readAtaData := by
  cases p <;> simp [handles]

/-- An ATA command's arm runs after the preamble, in every state. -/
theorem ataArm_eq (arm : State → State) (s : State) : ataArm arm s = arm (ataPreamble s) :=
  post_legal _ (ataCmd_legal _)

/-- A packet command's arm runs after the preamble. -/
theorem spiArm_eq (arm : State → State) {s : State} (h : s.phase = .readAtaData) :
    spiArm arm s = arm (spiPreamble s) :=
  post_legal _ ((spiCmd_legal _).mpr h)

/-- Outside READ_ATA_DATA a packet command faults. -/
theorem spiArm_illegal (arm : State → State) {s : State} (h : s.phase ≠ .readAtaData) :
    spiArm arm s = raiseFault .illegalEvent s := by
  refine post_illegal _ ?_
  have := mt (spiCmd_legal s.phase).mp h
  simpa using this

/-- A slice within its object has the requested length (rule R172). -/
theorem slice_length {o : List Byte} {offset size : Nat} (h : offset + size ≤ o.length) :
    (slice o offset size).length = size := by
  simp [slice]; omega

/-- A reply within its object and within the buffer arms the phase (rules R172, R118). -/
theorem replySlice_fits {o : List Byte} {offset size : Nat} (s : State)
    (h : offset + size ≤ o.length) (hsize : size ≤ 65536) :
    replySlice o offset size s = armPioOut (slice o offset size) size s := by
  unfold replySlice spiWrite
  rw [if_neg (by omega), if_neg (by omega)]

/-- A reply beyond its object faults (rule R172). -/
theorem replySlice_oversize {o : List Byte} {offset size : Nat} (s : State)
    (h : o.length < offset + size) : replySlice o offset size s = raiseFault .oversize s := by
  unfold replySlice
  rw [if_pos h]

/-- Everything a step can do: nothing without a pending operation, a refusal by name, or the decoded
instruction. -/
theorem step_cases (s : State) :
    (s.pending = [] ∧ step s = .next s) ∨
    (∃ op rest why, s.pending = op :: rest ∧ decodeHost op = .error why ∧
      step s = .refused (.notAnOperation why)) ∨
    (∃ op rest i, s.pending = op :: rest ∧ decodeHost op = .ok i ∧
      step s = exec i { s with pending := rest }) := by
  unfold step takeOperation
  cases h : s.pending with
  | nil => exact .inl ⟨rfl, rfl⟩
  | cons op rest =>
    cases hd : decodeHost op with
    | error why => exact .inr (.inl ⟨op, rest, why, rfl, hd, by simp [hd]⟩)
    | ok i => exact .inr (.inr ⟨op, rest, i, rfl, hd, by simp [hd]⟩)

/-- What each instruction does to an unfaulted block whose response is cleared. -/
def effect : Instr → State → State
  | .rdAltstatus => fun s => answer (.word (slotWord s.status)) s
  | .wrDevctrl _ => id
  | .rdData => rdData
  | .wrData v => wrData v
  | .rdError => fun s => answer (.word (slotWord s.error)) s
  | .wrFeatures v => fun s => { s with features := v }
  | .rdIntreason => fun s => answer (.word (slotWord s.intreason)) s
  | .wrSlot3 _ => raiseFault .roWrite
  | .rdSectnum => fun s => answer (.word (slotWord s.sectnum)) s
  | .wrSlot4 _ => raiseFault .roWrite
  | .rdBytecountLo => fun s => answer (.word (slotWord (s.byteCountLo.setWidth 16))) s
  | .wrBytecountLo v => fun s => { s with byteCount := putLo (lowByte v) s.byteCount }
  | .rdBytecountHi => fun s => answer (.word (slotWord (s.byteCountHi.setWidth 16))) s
  | .wrBytecountHi v => fun s => { s with byteCount := putHi (lowByte v) s.byteCount }
  | .rdDrvsel => fun s => answer (.word (slotWord 0)) s
  | .wrDrvsel _ => id
  | .rdStatus => fun s => answer (.word (slotWord s.status)) (clearIrq s)
  | .wrCommand v => ataCmd (commandByte v)
  | .dmard n => dmard n
  | .bind d => bindDisc d
  | .ataNop => ataNop
  | .ataSoftReset => ataSoftReset
  | .ataExecDiag => ataExecDiag
  | .ataPacketCmd => ataPacketCmd
  | .ataIdentifyDev => ataIdentifyDev
  | .ataSetFeatures => ataSetFeatures
  | .ataUnknown c => ataUnknown c
  | .spiTestUnit => spiTestUnit
  | .spiReqStat offset size => spiReqStat offset size
  | .spiReqMode offset size => spiReqMode offset size
  | .spiSetMode offset size => spiSetMode offset size
  | .spiReqError size => spiReqError size
  | .spiGetToc area size => spiGetToc area size
  | .spiReqSes sessionNum size => spiReqSes sessionNum size
  | .spiCdOpen => spiCdOpen
  | .spiCdPlay => spiCdPlay
  | .spiCdSeek param => spiCdSeek param
  | .spiCdScan => spiCdScan
  | .spiCdRead msf fmt mask a b c count => spiCdRead msf fmt mask a b c count
  | .spiCdRead2 => spiCdRead2
  | .spiGetScd format size => spiGetScd format size
  | .spiChkSecu => spiChkSecu
  | .spiReqSecu => spiReqSecu
  | .spiUnknown c => spiUnknown c

/-- Every instruction is its effect as one operation; only a disc outside the obligation is not bound. -/
theorem exec_eq_operate (i : Instr) (s : State)
    (h : ∀ d, i = .bind (some d) → d.meetsObligation) : exec i s = operate (effect i) s := by
  cases i
  case bind d =>
    cases d with
    | none => rfl
    | some e => exact if_pos (h e rfl)
  all_goals rfl

/-- If an instruction answers a next state, the block was not faulted, a disc bound keeps its
obligation, and this is the effect. -/
theorem exec_next {i : Instr} {s t : State} (h : exec i s = .next t) :
    s.faulted = none ∧ (∀ d, i = .bind (some d) → d.meetsObligation) ∧
      t = effect i { s with response := .none } := by
  have hd : ∀ d, i = .bind (some d) → d.meetsObligation := by
    rintro d rfl
    by_contra hd
    have e : exec (.bind (some d)) s = .refused .discOutsideObligation := if_neg hd
    rw [e] at h
    cases h
  rw [exec_eq_operate i s hd] at h
  exact ⟨(operate_next h).1, hd, (operate_next h).2⟩

/-- On an unfaulted block an instruction answers its effect. -/
theorem exec_ready {i : Instr} {s : State} (h : s.faulted = none)
    (hd : ∀ d, i = .bind (some d) → d.meetsObligation) :
    exec i s = .next (effect i { s with response := .none }) := by
  rw [exec_eq_operate i s hd, operate_ready _ h]

/-- WR COMMAND does what the ATA command of its low byte does (rules R97, R130). -/
theorem ataCmd_eq_effect (c : Byte) : ataCmd c = effect (decodeAta c) := by
  funext s
  unfold ataCmd decodeAta
  split <;> rfl

/-- The escalation of a completed packet does what its SPI command does (rules R115, R150). -/
theorem spiCmd_eq_effect (s : State) : spiCmd s = effect (decodeSpi (packetOf s.pioBuf)) s := by
  unfold spiCmd decodeSpi
  split <;> rfl

end Sys2Proof.Machine.Laws
end

