-- ==== Sys2Proof/Laws/Stream.lean ====
section
/-! SUPPORT. Everything the data-phase handlers can do, said once: a refill, a drain, a read, a write, a
DMA read request, a reply (spec 41_state_machine.md rules R115 to R120, 44_cd_read_streaming.md). -/

namespace Sys2Proof.Machine.Laws

/-- Everything the read loop can do (rule R180): the refill of its path, or the fault of one that would
not fit, which a disc that keeps its obligation rules out (`refillBytes_length`). -/
theorem cdRead_cases (s : State) :
    ((refillBytes dmaSectorBudget s).length ≤ 65536 ∧ s.cdr.dma = true ∧
      cdRead s = refillDma dmaSectorBudget s) ∨
    ((refillBytes dmaSectorBudget s).length ≤ 65536 ∧ s.cdr.dma = false ∧
      cdRead s = refillPio pioSectorBudget s) ∨
    (65536 < (refillBytes dmaSectorBudget s).length ∧ cdRead s = raiseFault .oversize s) := by
  unfold cdRead cdReadDma cdReadPio
  rw [show pioSectorBudget = dmaSectorBudget from rfl]
  rcases Nat.lt_or_ge 65536 (refillBytes dmaSectorBudget s).length with h | h
  · exact .inr (.inr ⟨h, by simp [h]⟩)
  · have h' : ¬ 65536 < (refillBytes dmaSectorBudget s).length := by omega
    cases hd : s.cdr.dma
    · exact .inr (.inl ⟨h, rfl, by simp [h']⟩)
    · exact .inl ⟨h, rfl, by simp [h']⟩

/-- Whether an event PIO_READ finds its buffer drained (rule R116, decision D18). -/
def isDrained (s : State) : Prop :=
  if s.phase = .writeSpiData then s.pioHead = s.pioSize else s.dmaSize ≤ s.dmaHead

/-- Everything PIO_READ can do (rule R116): nothing before the drain, the completion at the last one, the
next refill at any other. -/
theorem pioRead_cases (s : State) :
    (¬ isDrained s ∧ pioRead s = s) ∨
    (isDrained s ∧ s.cdr.remaining = 0 ∧ pioRead s = spiEnd s) ∨
    (isDrained s ∧ 0 < s.cdr.remaining ∧ pioRead s = cdRead s) := by
  have hd : drained s = if 0 < s.cdr.remaining then cdRead s else spiEnd s := rfl
  unfold isDrained pioRead
  by_cases hp : s.phase = .writeSpiData
  · by_cases h : s.pioHead = s.pioSize
    · rcases Nat.eq_zero_or_pos s.cdr.remaining with hr | hr
      · exact .inr (.inl (by simp [hp, h, hd, hr]))
      · exact .inr (.inr (by simp [hp, h, hd, hr]))
    · exact .inl (by simp [hp, h])
  · by_cases h : s.dmaSize ≤ s.dmaHead
    · rcases Nat.eq_zero_or_pos s.cdr.remaining with hr | hr
      · exact .inr (.inl (by simp [hp, h, hd, hr]))
      · exact .inr (.inr (by simp [hp, h, hd, hr]))
    · exact .inl (by simp [hp, h])

/-- Everything SPI_DATA can do in its own state (rule R117). -/
theorem spiData_cases (s : State) :
    (s.pioOffset + s.pioSize ≤ 32 ∧ spiData s = spiEnd { s with
      hwInfo := hwInfoWrite s.hwInfo s.pioOffset (s.pioBuf.readRange 0 s.pioSize) }) ∨
    (32 < s.pioOffset + s.pioSize ∧ spiData s = raiseFault .oversize s) := by
  unfold spiData
  rcases Nat.lt_or_ge 32 (s.pioOffset + s.pioSize) with h | h
  · exact .inr ⟨h, if_pos h⟩
  · exact .inl ⟨h, if_neg (by omega)⟩

/-- Everything PIO_WRITE can do (rule R115): nothing below its threshold, the packet's command, the
payload's completion. -/
theorem pioWrite_cases (s : State) :
    (s.phase = .readAtaData ∧ s.pioHead = 12 ∧ pioWrite s = spiCmd s) ∨
    (s.phase = .readSpiData ∧ s.pioHead = s.pioSize ∧ pioWrite s = spiData s) ∨
    (¬ (s.phase = .readAtaData ∧ s.pioHead = 12) ∧ ¬ (s.phase = .readSpiData ∧ s.pioHead = s.pioSize) ∧
      pioWrite s = s) := by
  unfold pioWrite
  by_cases h1 : s.phase = .readAtaData ∧ s.pioHead = 12
  · exact .inl ⟨h1.1, h1.2, if_pos h1⟩
  · by_cases h2 : s.phase = .readSpiData ∧ s.pioHead = s.pioSize
    · refine .inr (.inl ⟨h2.1, h2.2, ?_⟩)
      rw [if_neg h1, if_pos h2]
      exact post_legal _ (by rw [h2.1]; rfl)
    · exact .inr (.inr ⟨h1, h2, by rw [if_neg h1, if_neg h2]⟩)

/-- Everything RD DATA can do (rule R82). -/
theorem rdData_cases (s : State) :
    (s.pioSize < s.pioHead + 2 ∧ rdData s = raiseFault .bounds s) ∨
    (s.pioHead + 2 ≤ s.pioSize ∧ ¬ (s.phase = .writeSpiData ∨ s.phase = .writeDmaData) ∧
      rdData s = answer (.word (slotWord (dataWord (s.pioBuf.read s.pioHead) (s.pioBuf.read (s.pioHead + 1)))))
        (raiseFault .illegalEvent { s with pioHead := s.pioHead + 2 })) ∨
    (s.pioHead + 2 ≤ s.pioSize ∧ (s.phase = .writeSpiData ∨ s.phase = .writeDmaData) ∧
      rdData s = answer (.word (slotWord (dataWord (s.pioBuf.read s.pioHead) (s.pioBuf.read (s.pioHead + 1)))))
        (pioRead { s with pioHead := s.pioHead + 2 })) := by
  unfold rdData
  rcases Nat.lt_or_ge s.pioSize (s.pioHead + 2) with h | h
  · exact .inl ⟨h, if_pos h⟩
  · rw [if_neg (by omega)]
    by_cases hp : s.phase = .writeSpiData ∨ s.phase = .writeDmaData
    · refine .inr (.inr ⟨h, hp, ?_⟩)
      rw [post_legal]
      rcases hp with hp | hp <;> simp [hp, handles]
    · refine .inr (.inl ⟨h, hp, ?_⟩)
      rw [post_illegal]
      cases e : s.phase <;> simp_all [handles]

/-- Everything WR DATA can do (rule R83). -/
theorem wrData_cases (v : Reg) (s : State) :
    (s.pioSize < s.pioHead + 2 ∧ wrData v s = raiseFault .oversize s) ∨
    (s.pioHead + 2 ≤ s.pioSize ∧ ¬ (s.phase = .readAtaData ∨ s.phase = .readSpiData) ∧
      wrData v s = raiseFault .illegalEvent (storeWord v s)) ∨
    (s.pioHead + 2 ≤ s.pioSize ∧ (s.phase = .readAtaData ∨ s.phase = .readSpiData) ∧
      wrData v s = pioWrite (storeWord v s)) := by
  unfold wrData
  rcases Nat.lt_or_ge s.pioSize (s.pioHead + 2) with h | h
  · exact .inl ⟨h, if_pos h⟩
  · rw [if_neg (by omega)]
    by_cases hp : s.phase = .readAtaData ∨ s.phase = .readSpiData
    · refine .inr (.inr ⟨h, hp, post_legal _ ?_⟩)
      rcases hp with hp | hp <;> simp [storeWord, hp, handles]
    · refine .inr (.inl ⟨h, hp, post_illegal _ ?_⟩)
      cases e : s.phase <;> simp_all [handles, storeWord]

/-- Everything DMARD can do (rule R98). -/
theorem dmard_cases (n : Nat) (s : State) :
    ((s.phase ≠ .writeDmaData ∨ n < 1) ∧ dmard n s = raiseFault .dmaState s) ∨
    (s.phase = .writeDmaData ∧ 1 ≤ n ∧
      dmard n s = answer (.bytes (s.dmaBuf.readRange s.dmaHead (dmaTake n s)))
        (pioRead { s with dmaHead := s.dmaHead + dmaTake n s })) := by
  unfold dmard
  by_cases hp : s.phase = .writeDmaData
  · rcases Nat.lt_or_ge n 1 with h | h
    · exact .inl ⟨.inr h, by rw [if_neg (by simp [hp]), if_pos h]⟩
    · refine .inr ⟨hp, h, ?_⟩
      rw [if_neg (by simp [hp]), if_neg (by omega), post_legal]
      simp [hp, handles]
  · exact .inl ⟨.inl hp, if_pos hp⟩

/-- Everything a reply can do (rules R172, R118): arm the phase with exactly the slice, or fault. -/
theorem replySlice_cases (o : List Byte) (offset size : Nat) (s : State) :
    (offset + size ≤ o.length ∧ size ≤ 65536 ∧
      replySlice o offset size s = armPioOut (slice o offset size) size s) ∨
    ((o.length < offset + size ∨ 65536 < size) ∧ replySlice o offset size s = raiseFault .oversize s) := by
  rcases Nat.lt_or_ge o.length (offset + size) with h | h
  · exact .inr ⟨.inl h, replySlice_oversize s h⟩
  · rcases Nat.lt_or_ge 65536 size with h' | h'
    · refine .inr ⟨.inr h', ?_⟩
      unfold replySlice spiWrite
      rw [if_neg (by omega), if_pos h']
    · exact .inl ⟨h, h', replySlice_fits s h h'⟩

end Sys2Proof.Machine.Laws
end

