-- ==== Sys2Proof/Laws/Commands.lean ====
section
/-! SUPPORT. Everything a command of the two command levels can do, said once over its preamble (spec
42_ata_commands.md rule R130, 43_spi_commands.md rule R150). -/

namespace Sys2Proof.Machine.Laws

/-- Everything the ATA command of a byte can do, in any state: complete (NOP with its error bits,
SOFT_RESET after the soft reset, SET_FEATURES plainly), arm the packet receipt, or fault. -/
theorem ataCmd_cases (c : Byte) (s : State) :
    (c = 0x00 ∧ ataCmd c s = ataEnd { ataPreamble s with
      error := putAbrt true (ataPreamble s).error, status := putCheck true (ataPreamble s).status }) ∨
    (c = 0x08 ∧ ataCmd c s = ataEnd (softReset (ataPreamble s))) ∨
    (c = 0xEF ∧ ataCmd c s = ataEnd (ataPreamble s)) ∨
    (c = 0xA0 ∧ ataCmd c s = ataPacketCmd s) ∨
    (∃ cause, ataCmd c s = raiseFault cause (ataPreamble s)) := by
  have h : ∀ n : Nat, c.toNat = n → c = BitVec.ofNat 8 n := by
    rintro n rfl; simp
  unfold ataCmd decodeAta
  split
  · rename_i e; exact .inl ⟨h _ e, by simp only [ataCase, ataNop, ataArm_eq]⟩
  · rename_i e; exact .inr (.inl ⟨h _ e, by simp only [ataCase, ataSoftReset, ataArm_eq]⟩)
  · exact .inr (.inr (.inr (.inr ⟨_, ataArm_eq _ s⟩)))
  · rename_i e; exact .inr (.inr (.inr (.inl ⟨h _ e, rfl⟩)))
  · exact .inr (.inr (.inr (.inr ⟨_, ataArm_eq _ s⟩)))
  · rename_i e; exact .inr (.inr (.inl ⟨h _ e, ataArm_eq _ s⟩))
  · exact .inr (.inr (.inr (.inr ⟨_, ataArm_eq _ s⟩)))

/-- What PACKET_CMD writes, over its preamble (rule R133). -/
theorem ataPacketCmd_eq (s : State) :
    ataPacketCmd s = { ataPreamble s with
      pioHead := 0
      pioSize := 12
      intreason := putIo false (putCod true s.intreason)
      status := putBsy false (putDrq true (ataPreamble s).status)
      phase := .readAtaData } :=
  ataArm_eq _ s

/-- A reply as a case of `spi_cases`: the phase armed with a payload of the armed size, or a fault. -/
theorem replySlice_shape (o : List Byte) (offset size : Nat) (s : State) :
    (∃ cause, replySlice o offset size s = raiseFault cause s) ∨
    (∃ payload : List Byte, payload.length = size ∧ size ≤ 65536 ∧
      replySlice o offset size s = armPioOut payload size s) := by
  rcases replySlice_cases o offset size s with ⟨h, h', e⟩ | ⟨-, e⟩
  · exact .inr ⟨_, slice_length h, h', e⟩
  · exact .inl ⟨_, e⟩

/-- Everything an SPI command can do in the packet phase, over its preamble (rule R150): fault, complete
with the drive status kept or set, arm a reply of the armed size, arm SET_MODE's payload within the
block, or enter the CD-read loop with a fresh progress record. -/
theorem spi_cases {i : Instr} (hi : i.isSpi = true) {s : State} (hp : s.phase = .readAtaData) :
    (∃ cause, effect i s = raiseFault cause (spiPreamble s)) ∨
    (∃ r, (r = s.sectnum ∨ r = putDriveStatus drivePause s.sectnum ∨
        r = putDriveStatus driveStandby s.sectnum) ∧
      effect i s = spiEnd { spiPreamble s with sectnum := r }) ∨
    (∃ (payload : List Byte) (size : Nat), payload.length = size ∧ size ≤ 65536 ∧
      effect i s = armPioOut payload size (spiPreamble s)) ∨
    (∃ offset size : Nat, offset + size ≤ 32 ∧ effect i s = spiRead offset size (spiPreamble s)) ∨
    (∃ fmt mask fad count, count < 2 ^ 24 ∧
      effect i s = cdRead { spiPreamble s with cdr := ⟨s.featuresDma, fmt, mask, fad, count⟩ }) := by
  have reply : ∀ {t : State} (o : List Byte) (offset size : Nat),
      t = replySlice o offset size (spiPreamble s) →
      (∃ c, t = raiseFault c (spiPreamble s)) ∨
      (∃ r, (r = s.sectnum ∨ r = putDriveStatus drivePause s.sectnum ∨
          r = putDriveStatus driveStandby s.sectnum) ∧ t = spiEnd { spiPreamble s with sectnum := r }) ∨
      (∃ (payload : List Byte) (size : Nat), payload.length = size ∧ size ≤ 65536 ∧
        t = armPioOut payload size (spiPreamble s)) ∨
      (∃ offset size : Nat, offset + size ≤ 32 ∧ t = spiRead offset size (spiPreamble s)) ∨
      (∃ fmt mask fad count, count < 2 ^ 24 ∧
        t = cdRead { spiPreamble s with cdr := ⟨s.featuresDma, fmt, mask, fad, count⟩ }) := by
    intro t o offset size e
    rcases replySlice_shape o offset size (spiPreamble s) with ⟨c, h⟩ | ⟨p, h1, h2, h3⟩
    · exact .inl ⟨c, e.trans h⟩
    · exact .inr (.inr (.inl ⟨p, size, h1, h2, e.trans h3⟩))
  cases i <;> simp only [Instr.isSpi, Bool.false_eq_true] at hi
  case spiTestUnit => exact .inr (.inl ⟨s.sectnum, .inl rfl, spiArm_eq _ hp⟩)
  case spiReqStat offset size => exact reply _ _ _ (spiArm_eq _ hp)
  case spiReqMode offset size => exact reply _ _ _ (spiArm_eq _ hp)
  case spiSetMode offset size =>
    have e : effect (.spiSetMode offset size) s = if 32 < offset.toNat + size.toNat
        then raiseFault .oversize (spiPreamble s) else spiRead offset.toNat size.toNat (spiPreamble s) := by
      simp only [effect, spiSetMode, spiArm_eq _ hp]
    rcases Nat.lt_or_ge 32 (offset.toNat + size.toNat) with h | h
    · exact .inl ⟨_, e.trans (if_pos h)⟩
    · exact .inr (.inr (.inr (.inl ⟨_, _, h, e.trans (if_neg (by omega))⟩)))
  case spiReqError size => exact reply _ _ _ (spiArm_eq _ hp)
  case spiGetToc area size =>
    have e : effect (.spiGetToc area size) s = match s.disc with
        | none => raiseFault .noDisc (spiPreamble s)
        | some d => match tocReply d area with
          | none => raiseFault .bounds (spiPreamble s)
          | some o => replySlice o 0 size.toNat (spiPreamble s) := by
      simp only [effect, spiGetToc, spiArm_eq _ hp, spiPreamble_disc] <;> rfl
    cases hd : s.disc with
    | none => rw [hd] at e; exact .inl ⟨_, e⟩
    | some d =>
      cases ht : tocReply d area with
      | none => simp only [hd, ht] at e; exact .inl ⟨_, e⟩
      | some o => simp only [hd, ht] at e; exact reply _ _ _ e
  case spiReqSes session size =>
    have e : effect (.spiReqSes session size) s = match s.disc with
        | none => raiseFault .noDisc (spiPreamble s)
        | some d => match sessionQuery d session.toNat with
          | none => raiseFault .bounds (spiPreamble s)
          | some (track, fad) =>
            replySlice (sessionReply (spiPreamble s).driveStatus track fad) 0 size.toNat (spiPreamble s) := by
      simp only [effect, spiReqSes, spiArm_eq _ hp, spiPreamble_disc] <;> rfl
    cases hd : s.disc with
    | none => rw [hd] at e; exact .inl ⟨_, e⟩
    | some d =>
      cases ht : sessionQuery d session.toNat with
      | none => simp only [hd, ht] at e; exact .inl ⟨_, e⟩
      | some q => simp only [hd, ht] at e; exact reply _ _ _ e
  case spiCdOpen => exact .inl ⟨_, spiArm_eq _ hp⟩
  case spiCdPlay => exact .inr (.inl ⟨_, .inr (.inl rfl), spiArm_eq _ hp⟩)
  case spiCdSeek param =>
    simp only [effect, spiCdSeek, spiArm_eq _ hp]
    by_cases h1 : param = 0x1 ∨ param = 0x2 ∨ param = 0x4
    · exact .inr (.inl ⟨_, .inr (.inl rfl), by simp only [seekStatus, if_pos h1]; rfl⟩)
    · by_cases h2 : param = 0x3
      · exact .inr (.inl ⟨_, .inr (.inr rfl), by simp only [seekStatus, if_neg h1, if_pos h2]; rfl⟩)
      · exact .inl ⟨.badParam, by simp only [seekStatus, if_neg h1, if_neg h2]⟩
  case spiCdScan => exact .inr (.inl ⟨_, .inr (.inl rfl), spiArm_eq _ hp⟩)
  case spiCdRead msf fmt mask a b c count =>
    refine .inr (.inr (.inr (.inr ⟨fmt, mask, getFad a b c msf, count.toNat, count.isLt, ?_⟩)))
    simp only [effect, spiCdRead, spiArm_eq _ hp]
    rfl
  case spiCdRead2 => exact .inl ⟨_, spiArm_eq _ hp⟩
  case spiGetScd format size => exact reply _ _ _ (spiArm_eq _ hp)
  case spiChkSecu => exact .inr (.inl ⟨s.sectnum, .inl rfl, spiArm_eq _ hp⟩)
  case spiReqSecu =>
    refine .inr (.inr (.inl ⟨secuReply, 126, by simp [secuReply], by omega, ?_⟩))
    exact (spiArm_eq _ hp).trans (if_neg (by omega))
  case spiUnknown c => exact .inl ⟨_, spiArm_eq _ hp⟩

end Sys2Proof.Machine.Laws
end

