-- ==== Sys2Proof/Laws/Effects.lean ====
section
/-! SUPPORT. Everything one instruction can do to an unfaulted block, said once, in three relations: what
follows an advanced read cursor, what a packet command does, and what an instruction does. A property of
all instructions is a case analysis of `effect_cases`. -/

namespace Sys2Proof.Machine.Laws

/-- What PIO_READ leaves when the cursor has been advanced (`s` is the state after the advance). -/
inductive DrainCase (s : State) : State → Prop
  | stay (h : ¬ isDrained s) : DrainCase s s
  | finish (h : isDrained s) (hr : s.cdr.remaining = 0) : DrainCase s (spiEnd s)
  | dma (h : isDrained s) (hr : 0 < s.cdr.remaining)
      (hl : (refillBytes dmaSectorBudget s).length ≤ 65536) (hd : s.cdr.dma = true) :
      DrainCase s (refillDma dmaSectorBudget s)
  | pio (h : isDrained s) (hr : 0 < s.cdr.remaining)
      (hl : (refillBytes dmaSectorBudget s).length ≤ 65536) (hd : s.cdr.dma = false) :
      DrainCase s (refillPio pioSectorBudget s)
  | fault (h : isDrained s) (hr : 0 < s.cdr.remaining)
      (hl : 65536 < (refillBytes dmaSectorBudget s).length) : DrainCase s (raiseFault .oversize s)

/-- CD_READ's fresh progress record, over the preamble (rule R166). -/
def withCdr (cdr : Cdr) (s : State) : State := { spiPreamble s with cdr := cdr }

/-- What a packet command does in the packet phase. -/
inductive SpiCase (s : State) : State → Prop
  | fault (c : Cause) : SpiCase s (raiseFault c (spiPreamble s))
  | finish (r : Reg) (hr : r = s.sectnum ∨ r = putDriveStatus drivePause s.sectnum ∨
      r = putDriveStatus driveStandby s.sectnum) : SpiCase s (spiEnd { spiPreamble s with sectnum := r })
  | reply (payload : List Byte) (size : Nat) (hl : payload.length = size) (hs : size ≤ 65536) :
      SpiCase s (armPioOut payload size (spiPreamble s))
  | payload (offset size : Nat) (h : offset + size ≤ 32) :
      SpiCase s (spiRead offset size (spiPreamble s))
  | readDma (fmt : BitVec 3) (mask : BitVec 4) (fad count : Nat) (hc : count < 2 ^ 24)
      (hd : s.featuresDma = true)
      (hl : (refillBytes dmaSectorBudget (withCdr ⟨true, fmt, mask, fad, count⟩ s)).length ≤ 65536) :
      SpiCase s (refillDma dmaSectorBudget (withCdr ⟨true, fmt, mask, fad, count⟩ s))
  | readPio (fmt : BitVec 3) (mask : BitVec 4) (fad count : Nat) (hc : count < 2 ^ 24)
      (hd : s.featuresDma = false)
      (hl : (refillBytes dmaSectorBudget (withCdr ⟨false, fmt, mask, fad, count⟩ s)).length ≤ 65536) :
      SpiCase s (refillPio pioSectorBudget (withCdr ⟨false, fmt, mask, fad, count⟩ s))
  | readFault (cdr : Cdr) (hl : 65536 < (refillBytes dmaSectorBudget (withCdr cdr s)).length) :
      SpiCase s (raiseFault .oversize (withCdr cdr s))

/-- `i` is the ATA command `j` of code `c`, or the WR COMMAND of that code (rules R63, R97). -/
def IsAta (i j : Instr) (c : Byte) : Prop := i = j ∨ ∃ v : Reg, i = .wrCommand v ∧ commandByte v = c

/-- What an instruction does to an unfaulted block. -/
inductive EffectCase (i : Instr) (s : State) : State → Prop
  /-- a read that changes nothing, or a discarded write -/
  | plain (r : Response) : EffectCase i s { s with response := r }
  | status (hi : i = .rdStatus) (r : Response) : EffectCase i s { s with irq := false, response := r }
  | features (v : Reg) (hi : i = .wrFeatures v) : EffectCase i s { s with features := v }
  | byteCount (v : Reg) (hi : i = .wrBytecountLo v ∨ i = .wrBytecountHi v) (b : Reg) :
      EffectCase i s { s with byteCount := b }
  | bind (d : Option Disc) (hi : i = .bind d) : EffectCase i s (softReset { s with disc := d })
  | nop (hi : IsAta i .ataNop 0x00) :
      EffectCase i s (ataEnd { ataPreamble s with
        error := putAbrt true (ataPreamble s).error, status := putCheck true (ataPreamble s).status })
  | softReset (hi : IsAta i .ataSoftReset 0x08) : EffectCase i s (ataEnd (softReset (ataPreamble s)))
  | setFeatures (hi : IsAta i .ataSetFeatures 0xEF) : EffectCase i s (ataEnd (ataPreamble s))
  | packet (hi : IsAta i .ataPacketCmd 0xA0) : EffectCase i s (ataPacketCmd s)
  | ataFault (c : Cause) : EffectCase i s (raiseFault c (ataPreamble s))
  | fault (c : Cause) : EffectCase i s (raiseFault c s)
  | readFault (c : Cause) (hb : s.pioHead + 2 ≤ s.pioSize) :
      EffectCase i s (raiseFault c { s with pioHead := s.pioHead + 2 })
  | writeFault (v : Reg) (c : Cause) (hb : s.pioHead + 2 ≤ s.pioSize) :
      EffectCase i s (raiseFault c (storeWord v s))
  | store (v : Reg) (hi : i = .wrData v) (hp : s.phase = .readAtaData ∨ s.phase = .readSpiData)
      (hb : s.pioHead + 2 ≤ s.pioSize) (h1 : ¬ (s.phase = .readAtaData ∧ s.pioHead + 2 = 12))
      (h2 : ¬ (s.phase = .readSpiData ∧ s.pioHead + 2 = s.pioSize)) : EffectCase i s (storeWord v s)
  | payload (v : Reg) (hi : i = .wrData v) (hp : s.phase = .readSpiData)
      (hb : s.pioHead + 2 = s.pioSize) (ho : s.pioOffset + s.pioSize ≤ 32) :
      EffectCase i s (spiEnd { storeWord v s with
        hwInfo := hwInfoWrite s.hwInfo s.pioOffset ((storeWord v s).pioBuf.readRange 0 s.pioSize) })
  | packetWord (v : Reg) (hi : i = .wrData v) (hp : s.phase = .readAtaData) (hh : s.pioHead = 10)
      (hb : 12 ≤ s.pioSize) {t : State} (ht : SpiCase (storeWord v s) t) : EffectCase i s t
  | spi (hi : i.isSpi = true) (hp : s.phase = .readAtaData) {t : State} (ht : SpiCase s t) :
      EffectCase i s t
  | readData (hi : i = .rdData) (hb : s.pioHead + 2 ≤ s.pioSize)
      (hp : s.phase = .writeSpiData ∨ s.phase = .writeDmaData) (r : Response) {t : State}
      (ht : DrainCase { s with pioHead := s.pioHead + 2 } t) : EffectCase i s (answer r t)
  | dma (n : Nat) (hi : i = .dmard n) (hp : s.phase = .writeDmaData) (hn : 1 ≤ n) (r : Response) {t : State}
      (ht : DrainCase { s with dmaHead := s.dmaHead + dmaTake n s } t) : EffectCase i s (answer r t)

theorem pioRead_drainCase (s : State) : DrainCase s (pioRead s) := by
  rcases pioRead_cases s with ⟨h, e⟩ | ⟨h, hr, e⟩ | ⟨h, hr, e⟩
  · rw [e]; exact .stay h
  · rw [e]; exact .finish h hr
  · rw [e]
    rcases cdRead_cases s with ⟨hl, hd, e'⟩ | ⟨hl, hd, e'⟩ | ⟨hl, e'⟩ <;> rw [e']
    · exact .dma h hr hl hd
    · exact .pio h hr hl hd
    · exact .fault h hr hl

theorem spi_spiCase {i : Instr} (hi : i.isSpi = true) {s : State} (hp : s.phase = .readAtaData) :
    SpiCase s (effect i s) := by
  rcases spi_cases hi hp with ⟨c, e⟩ | ⟨r, hr, e⟩ | ⟨p, n, hl, hs, e⟩ | ⟨o, n, h, e⟩ | ⟨f, m, a, n, h, e⟩ <;>
    rw [e]
  · exact .fault c
  · exact .finish r hr
  · exact .reply p n hl hs
  · exact .payload o n h
  · rcases cdRead_cases (withCdr ⟨s.featuresDma, f, m, a, n⟩ s) with ⟨hl, hd, e⟩ | ⟨hl, hd, e⟩ | ⟨hl, e⟩
    · have hd' : s.featuresDma = true := hd
      rw [hd'] at hl e
      exact hd' ▸ e ▸ .readDma f m a n h hd' hl
    · have hd' : s.featuresDma = false := hd
      rw [hd'] at hl e
      exact hd' ▸ e ▸ .readPio f m a n h hd' hl
    · exact e ▸ .readFault _ hl

theorem ata_effectCase {i : Instr} {c : Byte} (s : State) (hi : IsAta i (decodeAta c) c) :
    EffectCase i s (ataCmd c s) := by
  rcases ataCmd_cases c s with ⟨rfl, e⟩ | ⟨rfl, e⟩ | ⟨rfl, e⟩ | ⟨rfl, e⟩ | ⟨cause, e⟩ <;> rw [e]
  · exact .nop hi
  · exact .softReset hi
  · exact .setFeatures hi
  · exact .packet hi
  · exact .ataFault cause

/-- A packet decodes to a packet command (rule R65). -/
theorem decodeSpi_isSpi (p : Packet) : (decodeSpi p).isSpi = true := by
  unfold decodeSpi
  split <;> rfl

theorem wrData_effectCase (v : Reg) (s : State) : EffectCase (.wrData v) s (wrData v s) := by
  rcases wrData_cases v s with ⟨-, e⟩ | ⟨hb, -, e⟩ | ⟨hb, hp, e⟩ <;> rw [e]
  · exact .fault _
  · exact .writeFault v _ hb
  · rcases pioWrite_cases (storeWord v s) with ⟨h1, h2, e⟩ | ⟨h1, h2, e⟩ | ⟨h1, h2, e⟩ <;> rw [e]
    · have hh : s.pioHead + 2 = 12 := h2
      rw [spiCmd_eq_effect]
      have hp' : s.phase = .readAtaData := h1
      exact .packetWord v rfl hp' (by omega) (by omega) (spi_spiCase (decodeSpi_isSpi _) h1)
    · rcases spiData_cases (storeWord v s) with ⟨ho, e⟩ | ⟨-, e⟩ <;> rw [e]
      · exact .payload v rfl h1 h2 ho
      · exact .writeFault v _ hb
    · exact .store v rfl hp hb h1 h2

/-- Everything an instruction can do to a block whose response has been cleared. -/
theorem effect_cases (i : Instr) {s : State} (hf : s.faulted = none) (hr : s.response = .none) :
    EffectCase i s (effect i s) := by
  have same : s = { s with response := .none } := by rw [← hr]
  have ans : ∀ r, answer r s = { s with response := r } := fun r => answer_ready r hf
  have plain : ∀ r, EffectCase i s (answer r s) := fun r => by rw [ans]; exact .plain r
  have spi : i.isSpi = true → EffectCase i s (effect i s) := fun h => by
    by_cases hp : s.phase = .readAtaData
    · exact .spi h hp (spi_spiCase h hp)
    · have e : effect i s = raiseFault .illegalEvent s := by
        cases i <;> simp only [Instr.isSpi, Bool.false_eq_true] at h <;>
          simp only [effect, spiTestUnit, spiReqStat, spiReqMode, spiSetMode, spiReqError, spiGetToc,
            spiReqSes, spiCdOpen, spiCdPlay, spiCdSeek, spiCdScan, spiCdRead, spiCdRead2, spiGetScd,
            spiChkSecu, spiReqSecu, spiUnknown, spiArm_illegal _ hp]
      rw [e]
      exact .fault _
  cases i
  case rdAltstatus => exact plain _
  case wrDevctrl v => exact same ▸ .plain .none
  case rdData =>
    show EffectCase _ s (rdData s)
    rcases rdData_cases s with ⟨-, e⟩ | ⟨hb, -, e⟩ | ⟨hb, hp, e⟩ <;> rw [e]
    · exact .fault _
    · rw [answer_faulted _ (raiseFault_faulted _ _)]
      exact .readFault _ hb
    · exact .readData rfl hb hp _ (pioRead_drainCase _)
  case wrData v => exact wrData_effectCase v s
  case rdError => exact plain _
  case wrFeatures v => exact .features v rfl
  case rdIntreason => exact plain _
  case wrSlot3 v => exact .fault _
  case rdSectnum => exact plain _
  case wrSlot4 v => exact .fault _
  case rdBytecountLo => exact plain _
  case wrBytecountLo v => exact .byteCount v (.inl rfl) _
  case rdBytecountHi => exact plain _
  case wrBytecountHi v => exact .byteCount v (.inr rfl) _
  case rdDrvsel => exact plain _
  case wrDrvsel v => exact same ▸ .plain .none
  case rdStatus =>
    show EffectCase _ s (answer _ (clearIrq s))
    rw [answer_ready _ (by exact hf)]
    exact .status rfl _
  case wrCommand v => exact ata_effectCase s (.inr ⟨v, rfl, rfl⟩)
  case dmard n =>
    show EffectCase _ s (dmard n s)
    rcases dmard_cases n s with ⟨-, e⟩ | ⟨hp, hn, e⟩ <;> rw [e]
    · exact .fault _
    · exact .dma n rfl hp hn _ (pioRead_drainCase _)
  case bind d => exact .bind d rfl
  case ataNop => exact ata_effectCase (c := 0x00) s (.inl rfl)
  case ataSoftReset => exact ata_effectCase (c := 0x08) s (.inl rfl)
  case ataExecDiag => exact ata_effectCase (c := 0x90) s (.inl rfl)
  case ataPacketCmd => exact ata_effectCase (c := 0xA0) s (.inl rfl)
  case ataIdentifyDev => exact ata_effectCase (c := 0xA1) s (.inl rfl)
  case ataSetFeatures => exact ata_effectCase (c := 0xEF) s (.inl rfl)
  case ataUnknown c =>
    show EffectCase _ s (ataUnknown c s)
    rw [ataUnknown, ataArm_eq]
    exact .ataFault _
  all_goals exact spi rfl

/-- If an instruction answers a next state, it is one of the cases. -/
theorem exec_cases {i : Instr} {s t : State} (h : exec i s = .next t) :
    s.faulted = none ∧ (∀ d, i = .bind (some d) → d.meetsObligation) ∧
      EffectCase i { s with response := .none } t := by
  obtain ⟨hf, hd, rfl⟩ := exec_next h
  exact ⟨hf, hd, effect_cases i hf rfl⟩

end Sys2Proof.Machine.Laws
end

