-- ==== Sys2Proof/Laws/Fields.lean ====
section
/-! SUPPORT. The register fields: a field write sets that field and no other bit, and the closed forms
of the bit writes. -/

namespace Sys2Proof.Machine.Laws

/-- Writing a field sets its bits and leaves every other bit (00_scope.md section 6). -/
theorem getLsbD_putField (r : Reg) (lo : Nat) {w : Nat} (v : BitVec w) (j : Nat) (hj : j < 16) :
    (putField r lo v).getLsbD j = if lo ≤ j ∧ j < lo + w then v.getLsbD (j - lo) else r.getLsbD j := by
  simp only [putField, BitVec.getLsbD_or, BitVec.getLsbD_and, BitVec.getLsbD_not,
    BitVec.getLsbD_shiftLeft, BitVec.getLsbD_setWidth, BitVec.getLsbD_allOnes]
  have hk : j - lo < 16 := by omega
  rcases Nat.lt_or_ge j lo with h1 | h1
  · rw [if_neg (by omega)]; simp [hj, h1]
  · rcases Nat.lt_or_ge j (lo + w) with h2 | h2
    · rw [if_pos ⟨h1, h2⟩]; simp [hj, hk, Nat.not_lt.mpr h1, show j - lo < w by omega]
    · rw [if_neg (by omega)]
      simp [hj, hk, Nat.not_lt.mpr h1, show ¬ j - lo < w by omega,
        BitVec.getLsbD_of_ge v (j - lo) (by omega)]

/-- Writing a bit sets it and leaves every other bit. -/
theorem getLsbD_putBit (r : Reg) (i j : Nat) (b : Bool) (hj : j < 16) :
    (putBit r i b).getLsbD j = if j = i then b else r.getLsbD j := by
  unfold putBit
  rw [getLsbD_putField r i _ j hj]
  by_cases h : j = i
  · subst h; simp
  · rw [if_neg (by omega), if_neg h]

/-- Setting a bit, in closed form. -/
theorem putBit_true (r : Reg) (i : Nat) (hi : i < 16) : putBit r i true = r ||| (1#16 <<< i) := by
  apply BitVec.eq_of_getLsbD_eq
  intro j hj
  rw [getLsbD_putBit r i j true hj]
  simp only [BitVec.getLsbD_or, BitVec.getLsbD_shiftLeft, BitVec.getLsbD_one]
  rcases Nat.lt_trichotomy j i with h | h | h
  · rw [if_neg (by omega)]; simp [h]
  · subst h; simp [hj]
  · rw [if_neg (by omega)]; simp [show ¬ j - i = 0 by omega]

/-- Clearing a bit, in closed form. -/
theorem putBit_false (r : Reg) (i : Nat) (hi : i < 16) : putBit r i false = r &&& ~~~(1#16 <<< i) := by
  apply BitVec.eq_of_getLsbD_eq
  intro j hj
  rw [getLsbD_putBit r i j false hj]
  simp only [BitVec.getLsbD_and, BitVec.getLsbD_not, BitVec.getLsbD_shiftLeft, BitVec.getLsbD_one]
  rcases Nat.lt_trichotomy j i with h | h | h
  · rw [if_neg (by omega)]; simp [h, hj]
  · subst h; simp [hj]
  · rw [if_neg (by omega)]; simp [show ¬ j - i = 0 by omega, hj]

/-- STATUS after the ATA preamble (rule R130): BSY alone of the four fields. -/
theorem ataPreamble_bits (r : Reg) :
    putCheck false (putDrq false (putBsy true (putDrdy false r))) = (r &&& 0xFF36#16) ||| 0x0080#16 := by
  simp only [putCheck, putDrq, putBsy, putDrdy]
  apply BitVec.eq_of_getLsbD_eq
  intro j hj
  simp only [getLsbD_putBit _ _ _ _ hj, BitVec.getLsbD_or, BitVec.getLsbD_and]
  interval_cases j <;> simp

/-- STATUS after a completion (rules R121, R138): DRDY set, BSY clear. -/
theorem ready_bits (r : Reg) : putBsy false (putDrdy true r) = (r &&& 0xFF3F#16) ||| 0x0040#16 := by
  simp only [putBsy, putDrdy]
  apply BitVec.eq_of_getLsbD_eq
  intro j hj
  simp only [getLsbD_putBit _ _ _ _ hj, BitVec.getLsbD_or, BitVec.getLsbD_and]
  interval_cases j <;> simp

/-- STATUS after the SPI preamble (rules R150, R16): BSY set, DRQ and DRDY clear. -/
theorem busy_bits (r : Reg) :
    putBsy true (putDrq false (putDrdy false r)) = (r &&& 0xFF37#16) ||| 0x0080#16 := by
  simp only [putBsy, putDrq, putDrdy]
  apply BitVec.eq_of_getLsbD_eq
  intro j hj
  simp only [getLsbD_putBit _ _ _ _ hj, BitVec.getLsbD_or, BitVec.getLsbD_and]
  interval_cases j <;> simp

/-- STATUS after an arming (rules R118, R119, R133, R182): DRQ set, BSY clear. -/
theorem request_bits (r : Reg) : putBsy false (putDrq true r) = (r &&& 0xFF77#16) ||| 0x0008#16 := by
  simp only [putBsy, putDrq]
  apply BitVec.eq_of_getLsbD_eq
  intro j hj
  simp only [getLsbD_putBit _ _ _ _ hj, BitVec.getLsbD_or, BitVec.getLsbD_and]
  interval_cases j <;> simp

/-- STATUS after `spi_end` (rule R120): DRDY set, BSY and DRQ clear. -/
theorem spiEnd_bits (r : Reg) :
    putDrq false (putBsy false (putDrdy true r)) = (r &&& 0xFF37#16) ||| 0x0040#16 := by
  simp only [putBsy, putDrq, putDrdy]
  apply BitVec.eq_of_getLsbD_eq
  intro j hj
  simp only [getLsbD_putBit _ _ _ _ hj, BitVec.getLsbD_or, BitVec.getLsbD_and]
  interval_cases j <;> simp

/-- STATUS of an SPI command that completes, from before its preamble (rules R150, R120): the preamble's bits are
all overwritten. -/
theorem spiEnd_after_preamble_bits (r : Reg) :
    putDrq false (putBsy false (putDrdy true (putBsy true (putDrq false (putDrdy false r))))) =
      (r &&& 0xFF37#16) ||| 0x0040#16 := by
  rw [busy_bits, spiEnd_bits, BitVec.and_or_distrib_right, BitVec.and_assoc]
  simp

/-- STATUS of an SPI command that arms a PIO phase, from before its preamble (rules R150, R118, R119, R182): DRQ
alone of BSY, DRDY and DRQ. -/
theorem request_after_preamble_bits (r : Reg) :
    putBsy false (putDrq true (putBsy true (putDrq false (putDrdy false r)))) =
      (r &&& 0xFF37#16) ||| 0x0008#16 := by
  rw [busy_bits, request_bits, BitVec.and_or_distrib_right, BitVec.and_assoc]
  simp

/-- INTREASON's two fields, in closed form. -/
theorem intreason_bits (r : Reg) (cod io : Bool) :
    putIo io (putCod cod r) =
      (r &&& 0xFFFC#16) ||| ((if cod then 1#16 else 0) ||| (if io then 2#16 else 0)) := by
  simp only [putIo, putCod]
  apply BitVec.eq_of_getLsbD_eq
  intro j hj
  simp only [getLsbD_putBit _ _ _ _ hj, BitVec.getLsbD_or, BitVec.getLsbD_and]
  cases cod <;> cases io <;> interval_cases j <;> simp

end Sys2Proof.Machine.Laws
end

