-- ==== Sys2Proof/Laws/Memory.lean ====
section
/-! SUPPORT. The staging-buffer operations: reads after writes, and that every write keeps the canonical
form. -/

namespace Sys2Proof.Machine.Laws

theorem wf_nil : Memory.wf [] = true := rfl

theorem wfFrom_mono {lo lo' : Nat} (h : lo' ≤ lo) {m : Memory} (hm : m.wfFrom lo = true) :
    m.wfFrom lo' = true := by
  cases m with
  | nil => rfl
  | cons c m =>
    simp only [Memory.wfFrom, Bool.and_eq_true, decide_eq_true_eq] at hm ⊢
    exact ⟨⟨by omega, hm.1.2⟩, hm.2⟩

theorem read_of_lt {lo a : Nat} (h : a < lo) {m : Memory} (hm : m.wfFrom lo = true) :
    m.read a = Memory.unlisted := by
  induction m generalizing lo with
  | nil => rfl
  | cons c m ih =>
    obtain ⟨a', b⟩ := c
    simp only [Memory.wfFrom, Bool.and_eq_true, decide_eq_true_eq] at hm
    simp only [Memory.read]
    rw [if_neg (by omega)]
    exact ih (by omega) hm.2

theorem cons_wfFrom {lo a : Nat} {b : Byte} {m : Memory} (h : lo ≤ a) (hm : m.wfFrom (a + 1) = true) :
    (Memory.cons a b m).wfFrom lo = true := by
  unfold Memory.cons
  split
  · exact wfFrom_mono (by omega) hm
  · simp_all [Memory.wfFrom]

theorem read_cons {a a' : Nat} {b : Byte} {m : Memory} (hm : m.wfFrom (a + 1) = true) :
    (Memory.cons a b m).read a' = if a' = a then b else m.read a' := by
  unfold Memory.cons
  split
  · rename_i hb
    split
    · rename_i ha; rw [ha, hb]; exact read_of_lt (by omega) hm
    · rfl
  · rfl

theorem write_wfFrom {lo a : Nat} {b : Byte} {m : Memory} (h : lo ≤ a) (hm : m.wfFrom lo = true) :
    (m.write a b).wfFrom lo = true := by
  induction m generalizing lo with
  | nil => exact cons_wfFrom h rfl
  | cons c m ih =>
    obtain ⟨a', b'⟩ := c
    have hm' := hm
    simp only [Memory.wfFrom, Bool.and_eq_true, decide_eq_true_eq] at hm
    simp only [Memory.write]
    split
    · refine cons_wfFrom h ?_
      simp only [Memory.wfFrom, Bool.and_eq_true, decide_eq_true_eq]
      exact ⟨⟨by omega, hm.1.2⟩, hm.2⟩
    · split
      · rename_i ha; subst ha; exact cons_wfFrom h hm.2
      · simp only [Memory.wfFrom, Bool.and_eq_true, decide_eq_true_eq]
        exact ⟨hm.1, ih (by omega) hm.2⟩

theorem read_write_from {lo a a' : Nat} {b : Byte} {m : Memory} (h : lo ≤ a)
    (hm : m.wfFrom lo = true) :
    (m.write a b).read a' = if a' = a then b else m.read a' := by
  induction m generalizing lo with
  | nil => exact read_cons rfl
  | cons c m ih =>
    obtain ⟨a₁, b₁⟩ := c
    simp only [Memory.wfFrom, Bool.and_eq_true, decide_eq_true_eq] at hm
    simp only [Memory.write]
    split
    · refine read_cons ?_
      simp only [Memory.wfFrom, Bool.and_eq_true, decide_eq_true_eq]
      exact ⟨⟨by omega, hm.1.2⟩, hm.2⟩
    · split
      · rename_i h₁ ha
        subst ha
        rw [read_cons hm.2]
        simp only [Memory.read]
        split <;> rfl
      · simp only [Memory.read]
        rw [ih (lo := a₁ + 1) (by omega) hm.2]
        split
        · rw [if_neg (by omega)]
        · rfl

/-- A write keeps the canonical form. -/
theorem write_wf {m : Memory} (a : Nat) (b : Byte) (hm : m.wf = true) : (m.write a b).wf = true :=
  write_wfFrom (Nat.zero_le a) hm

/-- One byte reads as written, every other byte as before. -/
theorem read_write {m : Memory} (a a' : Nat) (b : Byte) (hm : m.wf = true) :
    (m.write a b).read a' = if a' = a then b else m.read a' :=
  read_write_from (Nat.zero_le a) hm

/-- A block copy keeps the canonical form. -/
theorem writeRange_wf {m : Memory} (a : Nat) (bytes : List Byte) (hm : m.wf = true) :
    (m.writeRange a bytes).wf = true := by
  induction bytes generalizing a with
  | nil => exact hm
  | cons b bytes ih => exact write_wf a b (ih (a + 1))

/-- What every index reads as after a block copy. -/
theorem read_writeRange {m : Memory} (a i : Nat) (bytes : List Byte) (hm : m.wf = true) :
    (m.writeRange a bytes).read i =
      if a ≤ i ∧ i < a + bytes.length then bytes.getD (i - a) 0 else m.read i := by
  induction bytes generalizing a with
  | nil => simp only [Memory.writeRange, List.length_nil]; rw [if_neg (by omega)]
  | cons b bytes ih =>
    simp only [Memory.writeRange, List.length_cons]
    rw [read_write _ _ _ (writeRange_wf _ _ hm), ih (a + 1)]
    by_cases h : i = a
    · subst h; simp
    · rw [if_neg h]
      by_cases h' : a + 1 ≤ i ∧ i < a + 1 + bytes.length
      · rw [if_pos h', if_pos (by omega)]
        obtain ⟨k, rfl⟩ : ∃ k, i = a + 1 + k := ⟨i - (a + 1), by omega⟩
        have h1 : a + 1 + k - (a + 1) = k := by omega
        have h2 : a + 1 + k - a = k + 1 := by omega
        rw [h1, h2, List.getD_cons_succ]
      · rw [if_neg h', if_neg (by omega)]

@[simp] theorem readRange_length (m : Memory) (a n : Nat) : (m.readRange a n).length = n := by
  induction n generalizing a with
  | zero => rfl
  | succ n ih => simp [Memory.readRange, ih]

/-- The bytes a range read returns. -/
theorem readRange_getD (m : Memory) (a n k : Nat) (h : k < n) :
    (m.readRange a n).getD k 0 = m.read (a + k) := by
  induction n generalizing a k with
  | zero => omega
  | succ n ih =>
    cases k with
    | zero => rfl
    | succ k =>
      simp only [Memory.readRange, List.getD_cons_succ]
      rw [ih _ _ (by omega)]
      congr 1; omega

/-- Two buffers that agree on a range return the same bytes for it. -/
theorem readRange_congr {m m' : Memory} {a n : Nat} (h : ∀ k, k < n → m.read (a + k) = m'.read (a + k)) :
    m.readRange a n = m'.readRange a n := by
  induction n generalizing a with
  | zero => rfl
  | succ n ih =>
    simp only [Memory.readRange]
    rw [show m.read a = m'.read a from h 0 (by omega)]
    congr 1
    refine ih fun k hk => ?_
    have := h (k + 1) (by omega)
    rwa [show a + 1 + k = a + (k + 1) by omega]

/-- A block copied in is read back whole. -/
theorem readRange_writeRange {m : Memory} (a : Nat) (bytes : List Byte) (hm : m.wf = true) :
    (m.writeRange a bytes).readRange a bytes.length = bytes := by
  apply List.ext_getElem (by simp)
  intro k h1 h2
  have hk : k < bytes.length := h2
  have e := readRange_getD (m.writeRange a bytes) a bytes.length k hk
  rw [read_writeRange a _ bytes hm, if_pos ⟨by omega, by omega⟩] at e
  rw [show a + k - a = k by omega] at e
  simpa [List.getD_eq_getElem?_getD, List.getElem?_eq_getElem, hk] using e

end Sys2Proof.Machine.Laws
end

