-- ==== Sys2Proof/Laws/PerInstr.lean ====
section
/-! SUPPORT. Per-instruction lemmas: the family TableCode says that the encoding of every instruction
carries its opcode-table row's `match` value (spec opcode_table.json, rules R61, R63, R65). -/

namespace Sys2Proof.Laws.TableCode

/-- The level of a coded form (rule R60) and the value its opcode table row matches on. -/
def codedMatch : Coded → Nat × Nat
  | .host op => (0, op.code.toNat)
  | .ata c => (1, c.toNat)
  | .spi p => (2, p[0].toNat)

/-- The level and the `match` value of every row of the opcode table (the two unnamed rows match on the
byte itself). -/
def tableMatch : Instr → Nat × Nat
  | .rdAltstatus => (0, 0x00)
  | .wrDevctrl _ => (0, 0x10)
  | .rdData => (0, 0x01)
  | .wrData _ => (0, 0x11)
  | .rdError => (0, 0x02)
  | .wrFeatures _ => (0, 0x12)
  | .rdIntreason => (0, 0x03)
  | .wrSlot3 _ => (0, 0x13)
  | .rdSectnum => (0, 0x04)
  | .wrSlot4 _ => (0, 0x14)
  | .rdBytecountLo => (0, 0x05)
  | .wrBytecountLo _ => (0, 0x15)
  | .rdBytecountHi => (0, 0x06)
  | .wrBytecountHi _ => (0, 0x16)
  | .rdDrvsel => (0, 0x07)
  | .wrDrvsel _ => (0, 0x17)
  | .rdStatus => (0, 0x08)
  | .wrCommand _ => (0, 0x18)
  | .dmard _ => (0, 0x09)
  | .bind _ => (0, 0x1A)
  | .ataNop => (1, 0x00)
  | .ataSoftReset => (1, 0x08)
  | .ataExecDiag => (1, 0x90)
  | .ataPacketCmd => (1, 0xA0)
  | .ataIdentifyDev => (1, 0xA1)
  | .ataSetFeatures => (1, 0xEF)
  | .ataUnknown c => (1, c.toNat)
  | .spiTestUnit => (2, 0x00)
  | .spiReqStat _ _ => (2, 0x10)
  | .spiReqMode _ _ => (2, 0x11)
  | .spiSetMode _ _ => (2, 0x12)
  | .spiReqError _ => (2, 0x13)
  | .spiGetToc _ _ => (2, 0x14)
  | .spiReqSes _ _ => (2, 0x15)
  | .spiCdOpen => (2, 0x16)
  | .spiCdPlay => (2, 0x20)
  | .spiCdSeek _ => (2, 0x21)
  | .spiCdScan => (2, 0x22)
  | .spiCdRead _ _ _ _ _ _ _ => (2, 0x30)
  | .spiCdRead2 => (2, 0x31)
  | .spiGetScd _ _ => (2, 0x40)
  | .spiChkSecu => (2, 0x70)
  | .spiReqSecu => (2, 0x71)
  | .spiUnknown c => (2, c.toNat)

/-- The encoding of `i` carries its row's `match` value. -/
def Statement (i : Instr) : Prop := codedMatch (encode i) = tableMatch i

theorem rdAltstatus : Statement .rdAltstatus := rfl
theorem wrDevctrl (v : Reg) : Statement (.wrDevctrl v) := rfl
theorem rdData : Statement .rdData := rfl
theorem wrData (v : Reg) : Statement (.wrData v) := rfl
theorem rdError : Statement .rdError := rfl
theorem wrFeatures (v : Reg) : Statement (.wrFeatures v) := rfl
theorem rdIntreason : Statement .rdIntreason := rfl
theorem wrSlot3 (v : Reg) : Statement (.wrSlot3 v) := rfl
theorem rdSectnum : Statement .rdSectnum := rfl
theorem wrSlot4 (v : Reg) : Statement (.wrSlot4 v) := rfl
theorem rdBytecountLo : Statement .rdBytecountLo := rfl
theorem wrBytecountLo (v : Reg) : Statement (.wrBytecountLo v) := rfl
theorem rdBytecountHi : Statement .rdBytecountHi := rfl
theorem wrBytecountHi (v : Reg) : Statement (.wrBytecountHi v) := rfl
theorem rdDrvsel : Statement .rdDrvsel := rfl
theorem wrDrvsel (v : Reg) : Statement (.wrDrvsel v) := rfl
theorem rdStatus : Statement .rdStatus := rfl
theorem wrCommand (v : Reg) : Statement (.wrCommand v) := rfl
theorem dmard (n : Nat) : Statement (.dmard n) := rfl
theorem bind (d : Option Disc) : Statement (.bind d) := rfl
theorem ataNop : Statement .ataNop := rfl
theorem ataSoftReset : Statement .ataSoftReset := rfl
theorem ataExecDiag : Statement .ataExecDiag := rfl
theorem ataPacketCmd : Statement .ataPacketCmd := rfl
theorem ataIdentifyDev : Statement .ataIdentifyDev := rfl
theorem ataSetFeatures : Statement .ataSetFeatures := rfl
theorem ataUnknown (c : Byte) : Statement (.ataUnknown c) := rfl
theorem spiTestUnit : Statement .spiTestUnit := rfl
theorem spiReqStat (offset size : Byte) : Statement (.spiReqStat offset size) := rfl
theorem spiReqMode (offset size : Byte) : Statement (.spiReqMode offset size) := rfl
theorem spiSetMode (offset size : Byte) : Statement (.spiSetMode offset size) := rfl
theorem spiReqError (size : Byte) : Statement (.spiReqError size) := rfl
theorem spiGetToc (area : Bool) (size : BitVec 16) : Statement (.spiGetToc area size) := rfl
theorem spiReqSes (sessionNum size : Byte) : Statement (.spiReqSes sessionNum size) := rfl
theorem spiCdOpen : Statement .spiCdOpen := rfl
theorem spiCdPlay : Statement .spiCdPlay := rfl
theorem spiCdSeek (param : BitVec 4) : Statement (.spiCdSeek param) := rfl
theorem spiCdScan : Statement .spiCdScan := rfl
theorem spiCdRead (msf : Bool) (fmt : BitVec 3) (mask : BitVec 4) (a b c : Byte) (count : BitVec 24) :
    Statement (.spiCdRead msf fmt mask a b c count) := rfl
theorem spiCdRead2 : Statement .spiCdRead2 := rfl
theorem spiGetScd (format : BitVec 4) (size : BitVec 16) : Statement (.spiGetScd format size) := rfl
theorem spiChkSecu : Statement .spiChkSecu := rfl
theorem spiReqSecu : Statement .spiReqSecu := rfl
theorem spiUnknown (c : Byte) : Statement (.spiUnknown c) := rfl

end Sys2Proof.Laws.TableCode
end

