-- ==== Sys2Proof/Tests/Slice0.lean ====
section
/-! SUPPORT. The model's own tests. Expected values are those of spec 95_test_vectors.md (the vector or
program is named), of the encoding tables (rules R61 to R66) or of the reset table (rule R34). After them,
for every obligation with hypotheses, one state and operands that meet them all. -/

namespace Sys2Proof.Tests

open Sys2Proof.Machine Sys2Proof.Claims

/-! ### Small states -/

def track1 : Track := ⟨1, 1, 4, 150⟩
def track2 : Track := ⟨2, 1, 0, 1000⟩
def track3 : Track := ⟨3, 1, 4, 45000⟩

/-- The test disc TD1 of spec 95 section 0, its sectors cut to one byte each (byte 0 of sector 45150 is
0x5E), so that it keeps its obligation whatever MAX_SECTOR_SIZE is. -/
def td1 : Disc where
  format := 8
  toc0 := ⟨track1, track2, 0, 12000⟩
  toc1 := ⟨track3, track3, 0, 549150⟩
  numSessions := 2
  sessions := [⟨track1, 12000⟩, ⟨track3, 549150⟩]
  otherSession := ⟨track1, 0⟩
  tracks := [track1, track2, track3]
  otherTrack := track1
  sectors := [⟨45150, 0, 0, [0x5E]⟩]
  otherSector := [0x00]

/-- A disc with a sector no MAX_SECTOR_SIZE admits (rule R6: at most 65535). -/
def hugeDisc : Disc := { td1 with otherSector := List.replicate 65536 0x00 }

/-- State IDLE0 of spec 95. -/
def idle : State := State.powerOn (some td1)

/-- State IDLE0-ND of spec 95. -/
def idleNoDisc : State := State.powerOn none

/-- The packet phase with `n` bytes received (P1 steps 1 to 6). -/
def inPacket (n : Nat) : State :=
  { idle with phase := .readAtaData, status := 0x0008, intreason := 0x0001, pioHead := n, pioSize := 12 }

/-- The packet phase of a drive without a disc. -/
def inPacketNoDisc : State := { inPacket 10 with disc := none, sectnum := 0x0007 }

/-- A PIO reply of six bytes, `n` of them read. -/
def sending (n : Nat) : State :=
  { idle with
    phase := .writeSpiData, status := 0x0008, intreason := 0x0002, irq := true, pioHead := n, pioSize := 6
    pioBuf := [(0, 0x01), (2, 0x02), (3, 0x08), (4, 0x61), (5, 0x1E)] }

/-- SET_MODE's payload phase: offset 18, four bytes, `n` of them received (P3 with size 4). -/
def receiving (n : Nat) : State :=
  { idle with
    phase := .readSpiData, status := 0x0008, intreason := 0x0000, irq := true
    pioHead := n, pioSize := 4, pioOffset := 18, pioBuf := [(0, 0x41), (1, 0x42)] }

/-- A DMA read of three buffered bytes with `left` sectors to come. -/
def streamingDma (left : Nat) : State :=
  { idleNoDisc with
    phase := .writeDmaData, status := 0x0080, intreason := 0x0001, pioHead := 12, pioSize := 12
    dmaSize := 3, dmaBuf := [(0, 0x5E), (1, 0x5F), (2, 0x60)], cdr := ⟨true, 0, 0, 45151, left⟩ }

/-- What a state is after one instruction, if it answers a next state. -/
def after (i : Instr) (s : State) : Option State := perform [i] s

/-- Whether an instruction leaves the block faulted with this cause. -/
def faultsWith (c : Cause) (i : Instr) (s : State) : Bool := (after i s).map State.faulted == some (some c)

/-- Whether an instruction leaves the block in this phase, not faulted. -/
def reaches (p : Phase) (i : Instr) (s : State) : Bool :=
  (after i s).map (fun t => (t.faulted, t.phase)) == some (none, p)

/-! ### Decoding: words written out from the encoding tables -/

/-- Rule R62: the register reads, `w` = 0. -/
theorem test_decode_reads :
    decodeHost ⟨0b00000, .absent⟩ = .ok .rdAltstatus ∧ decodeHost ⟨0b00001, .absent⟩ = .ok .rdData ∧
    decodeHost ⟨0b00010, .absent⟩ = .ok .rdError ∧ decodeHost ⟨0b00011, .absent⟩ = .ok .rdIntreason ∧
    decodeHost ⟨0b00100, .absent⟩ = .ok .rdSectnum ∧ decodeHost ⟨0b00101, .absent⟩ = .ok .rdBytecountLo ∧
    decodeHost ⟨0b00110, .absent⟩ = .ok .rdBytecountHi ∧ decodeHost ⟨0b00111, .absent⟩ = .ok .rdDrvsel ∧
    decodeHost ⟨0b01000, .absent⟩ = .ok .rdStatus ∧ decodeHost ⟨0b01001, .count 1024⟩ = .ok (.dmard 1024) :=
  ⟨rfl, rfl, rfl, rfl, rfl, rfl, rfl, rfl, rfl, rfl⟩

/-- Rules R42, R62: the register writes, `w` = 1, bits 31:16 of the word ignored (V9). -/
theorem test_decode_writes :
    decodeHost ⟨0b10000, .word 0x0002⟩ = .ok (.wrDevctrl 0x0002) ∧
    decodeHost ⟨0b10001, .word 0x4241⟩ = .ok (.wrData 0x4241) ∧
    decodeHost ⟨0b10010, .word 0xFFFF0001⟩ = .ok (.wrFeatures 0x0001) ∧
    decodeHost ⟨0b10011, .word 0⟩ = .ok (.wrSlot3 0) ∧ decodeHost ⟨0b10100, .word 0x81⟩ = .ok (.wrSlot4 0x81) ∧
    decodeHost ⟨0b10101, .word 0x34⟩ = .ok (.wrBytecountLo 0x34) ∧
    decodeHost ⟨0b10110, .word 0x12⟩ = .ok (.wrBytecountHi 0x12) ∧
    decodeHost ⟨0b10111, .word 0xB0⟩ = .ok (.wrDrvsel 0xB0) ∧
    decodeHost ⟨0b11000, .word 0xA0⟩ = .ok (.wrCommand 0xA0) ∧
    decodeHost ⟨0b11010, .disc none⟩ = .ok (.bind none) :=
  ⟨rfl, rfl, rfl, rfl, rfl, rfl, rfl, rfl, rfl, rfl⟩

/-- Rule R62: the codes outside the table, and an operand of the wrong kind, are rejected by name. -/
theorem test_decode_rejects :
    decodeHost ⟨0b01010, .absent⟩ = .error (.noSuchSlot 0b01010) ∧
    decodeHost ⟨0b01111, .absent⟩ = .error (.noSuchSlot 0b01111) ∧
    decodeHost ⟨0b11001, .word 0⟩ = .error (.noSuchSlot 0b11001) ∧
    decodeHost ⟨0b11011, .word 0⟩ = .error (.noSuchSlot 0b11011) ∧
    decodeHost ⟨0b11111, .word 0⟩ = .error (.noSuchSlot 0b11111) ∧
    decodeHost ⟨0b00000, .word 0⟩ = .error (.operandMismatch 0b00000) :=
  ⟨rfl, rfl, rfl, rfl, rfl, rfl⟩

/-- Rule R63: the ATA command bytes. -/
theorem test_decode_ata :
    decodeAta 0b00000000 = .ataNop ∧ decodeAta 0b00001000 = .ataSoftReset ∧
    decodeAta 0b10010000 = .ataExecDiag ∧ decodeAta 0b10100000 = .ataPacketCmd ∧
    decodeAta 0b10100001 = .ataIdentifyDev ∧ decodeAta 0b11101111 = .ataSetFeatures ∧
    decodeAta 0xEC = .ataUnknown 0xEC ∧ decodeAta 0xFF = .ataUnknown 0xFF := by decide

/-- Rules R65, R66: the SPI packets of V36 to V49a. -/
theorem test_decode_spi :
    decodeSpi #v[0x00, 0xFF, 0xFF, 0xFF, 0xFF, 0xFF, 0xFF, 0xFF, 0xFF, 0xFF, 0xFF, 0xFF] = .spiTestUnit ∧
    decodeSpi #v[0x10, 0, 4, 0, 8, 0, 0, 0, 0, 0, 0, 0] = .spiReqStat 4 8 ∧
    decodeSpi #v[0x11, 0, 0x1A, 0, 6, 0, 0, 0, 0, 0, 0, 0] = .spiReqMode 26 6 ∧
    decodeSpi #v[0x12, 0, 0x12, 0, 8, 0, 0, 0, 0, 0, 0, 0] = .spiSetMode 18 8 ∧
    decodeSpi #v[0x13, 0, 0, 0, 0x0A, 0, 0, 0, 0, 0, 0, 0] = .spiReqError 10 ∧
    decodeSpi #v[0x14, 1, 0, 0x01, 0x98, 0, 0, 0, 0, 0, 0, 0] = .spiGetToc true 408 ∧
    decodeSpi #v[0x15, 0, 2, 0, 6, 0, 0, 0, 0, 0, 0, 0] = .spiReqSes 2 6 ∧
    decodeSpi #v[0x16, 0, 0, 0, 0, 0, 0, 0, 0, 0, 0, 0] = .spiCdOpen ∧
    decodeSpi #v[0x20, 0, 0, 0, 0, 0, 0, 0, 0, 0, 0, 0] = .spiCdPlay ∧
    decodeSpi #v[0x21, 0x13, 0, 0, 0, 0, 0, 0, 0, 0, 0, 0] = .spiCdSeek 3 ∧
    decodeSpi #v[0x22, 0, 0, 0, 0, 0, 0, 0, 0, 0, 0, 0] = .spiCdScan ∧
    decodeSpi #v[0x30, 0xF3, 0, 0xB0, 0x5E, 0, 0, 0, 1, 2, 3, 0] = .spiCdRead true 1 0xF 0 0xB0 0x5E 0x010203 ∧
    decodeSpi #v[0x31, 0, 0, 0, 0, 0, 0, 0, 0, 0, 0, 0] = .spiCdRead2 ∧
    decodeSpi #v[0x40, 1, 0, 0, 0x0E, 0, 0, 0, 0, 0, 0, 0] = .spiGetScd 1 14 ∧
    decodeSpi #v[0x70, 0, 0, 0, 0, 0, 0, 0, 0, 0, 0, 0] = .spiChkSecu ∧
    decodeSpi #v[0x71, 0, 0, 0, 0, 0, 0, 0, 0, 0, 0, 0] = .spiReqSecu ∧
    decodeSpi #v[0x01, 0, 0, 0, 0, 0, 0, 0, 0, 0, 0, 0] = .spiUnknown 0x01 :=
  ⟨rfl, rfl, rfl, rfl, rfl, rfl, rfl, rfl, rfl, rfl, rfl, rfl, rfl, rfl, rfl, rfl, rfl⟩

/-- The opcode table's numbering: a host operation's code, an ATA byte, a packet with `p[0]` lowest. -/
theorem test_decode_table_word :
    decodeTableWord 8 0x01 = some .rdData ∧ decodeTableWord 8 0x12 = some (.wrFeatures 0) ∧
    decodeTableWord 8 0xA0 = some .ataPacketCmd ∧ decodeTableWord 8 0xEC = some (.ataUnknown 0xEC) ∧
    decodeTableWord 96 0x0A00000010 = some (.spiReqStat 0 10) := by decide

/-! ### Well-formedness: each check refuses an ill-formed instruction -/

theorem test_wellFormed_ata : ¬ Instr.wellFormed (.ataUnknown 0xA0) ∧ Instr.wellFormed (.ataUnknown 0xEC) := by
  decide

theorem test_wellFormed_spi : ¬ Instr.wellFormed (.spiUnknown 0x10) ∧ Instr.wellFormed (.spiUnknown 0x01) := by
  decide

theorem td1_obligation : td1.meetsObligation := by
  have h := Laws.one_le_maxSectorSize
  refine ⟨h, ?_⟩
  intro x hx
  have e : x = ⟨45150, 0, 0, [0x5E]⟩ := by simpa [td1] using hx
  rw [e]
  exact h

theorem hugeDisc_obligation : ¬ hugeDisc.meetsObligation := by
  intro h
  have h1 : (List.replicate 65536 (0x00 : Byte)).length ≤ Config.maxSectorSize := h.1
  rw [List.length_replicate] at h1
  have := Laws.maxSectorSize_le
  omega

theorem test_wellFormed_bind : ¬ Instr.wellFormed (.bind (some hugeDisc)) ∧ Instr.wellFormed (.bind (some td1)) :=
  ⟨hugeDisc_obligation, td1_obligation⟩

/-! ### Reset and steps -/

/-- Rules R21, R34: text of the hardware-info block, registers, an empty sequence of operations. -/
theorem test_reset :
    State.reset.status = 0x0040 ∧ State.reset.intreason = 0x0003 ∧ State.reset.sectnum = 0x0007 ∧
    State.reset.hwInfo[10] = 0x53 ∧ State.reset.hwInfo[31] = 0x38 ∧ State.reset.pending = [] := by decide

/-- The four operations of P2's steps 1, 2 and the start of a packet, taken from the sequence one a step. -/
theorem test_step_takes_the_next_operation :
    (match step { idle with pending := [⟨0x18, .word 0x00A0⟩, ⟨0x11, .word 0x0010⟩] } with
      | .next t => t.phase == .readAtaData && t.pending == [⟨0x11, .word 0x0010⟩]
      | .fault _ => false
      | .refused _ => false) = true := by decide

/-- Right after reset the next step runs an instruction of each level, placed by `withFetchWord`. -/
theorem test_withFetchWord :
    (match step (State.reset.withFetchWord 8 0x04) with
      | .next t => t.response == .word 0x0007 | .fault _ => false | .refused _ => false) = true ∧
    (match step (State.reset.withFetchWord 8 0xA0) with
      | .next t => t.phase == .readAtaData | .fault _ => false | .refused _ => false) = true ∧
    (match step (State.reset.withFetchWord 96 0x0A00000010) with
      | .next t => t.phase == .writeSpiData && t.pioSize == 10 | .fault _ => false | .refused _ => false) = true := by
  decide

/-! ### Register accesses -/

/-- V1, V4: STATUS, ERROR, INTREASON, SECTNUM, BYTECOUNT and DRVSEL of IDLE0; `irq` is untouched. -/
theorem test_reads :
    (after .rdAltstatus { idle with irq := true }).map (fun t => (t.response, t.irq)) = some (.word 0x0040, true) ∧
    (after .rdError idle).map State.response = some (.word 0x0000) ∧
    (after .rdIntreason idle).map State.response = some (.word 0x0003) ∧
    (after .rdSectnum idle).map State.response = some (.word 0x0081) ∧
    (after .rdBytecountLo { idle with byteCount := 0x1234 }).map State.response = some (.word 0x0034) ∧
    (after .rdBytecountHi { idle with byteCount := 0x1234 }).map State.response = some (.word 0x0012) ∧
    (after .rdDrvsel idle).map State.response = some (.word 0x0000) := by decide

/-- V2: RD STATUS returns STATUS and acknowledges. -/
theorem test_rdStatus :
    (after .rdStatus { idle with irq := true }).map (fun t => (t.response, t.irq)) =
      some (.word 0x0040, false) := by decide

/-- V3, V7, V9, V10, V11. -/
theorem test_writes :
    (after (.wrDevctrl 0x0004) idle).map State.status = some 0x0040 ∧
    (after (.wrDrvsel 0x00B0) idle).map State.sectnum = some 0x0081 ∧
    (after (.wrFeatures 0xFFFF) idle).map State.features = some 0xFFFF ∧
    (after (.wrBytecountLo 0xABCD) { idle with byteCount := 0x1234 }).map State.byteCount = some 0x12CD ∧
    (after (.wrBytecountHi 0xAB56) { idle with byteCount := 0x1234 }).map State.byteCount = some 0x5634 ∧
    faultsWith .roWrite (.wrSlot3 0) idle = true ∧ faultsWith .roWrite (.wrSlot4 0x0081) idle = true := by
  decide

/-- V42: the words of a reply, the last of which completes (STATUS 0x0040, INTREASON 0x0003). -/
theorem test_rdData :
    (after .rdData (sending 2)).map (fun t => (t.response, t.pioHead)) = some (.word 0x0802, 4) ∧
    (after .rdData (sending 4)).map (fun t => (t.response, t.status, t.intreason)) =
      some (.word 0x1E61, 0x0040, 0x0003) := by decide

/-- V12, V16, V60: the bound before the event, the event after the cursor. -/
theorem test_rdData_faults :
    faultsWith .bounds .rdData idle = true ∧ faultsWith .bounds .rdData (streamingDma 0) = true ∧
    (after .rdData (receiving 0)).map (fun t => (t.faulted, t.pioHead)) = some (some .illegalEvent, 2) := by
  decide

/-- V20 (the sixth word escalates, TEST_UNIT completes), V13, V14, V15. -/
theorem test_wrData :
    (after (.wrData 0x1234) (inPacket 8)).map (fun t => (t.phase, t.pioBuf)) =
      some (.readAtaData, [(8, 0x34), (9, 0x12)]) ∧
    (after (.wrData 0) (inPacket 10)).map (fun t => (t.phase, t.irq)) = some (.readAtaCmd, true) ∧
    faultsWith .oversize (.wrData 0) idle = true ∧ faultsWith .oversize (.wrData 0) (inPacket 12) = true ∧
    (after (.wrData 0x1234) (sending 0)).map (fun t => (t.faulted, t.pioHead)) =
      some (some .illegalEvent, 2) := by decide

/-- P3: the last payload word copies into the block at the offset and completes. -/
theorem test_wrData_payload :
    (after (.wrData 0x4443) (receiving 2)).map
      (fun t => (t.hwInfo[17], t.hwInfo[18], t.hwInfo[21], t.hwInfo[22], t.phase)) =
      some (0x20, 0x41, 0x44, 0x36, .readAtaCmd) := by decide

/-- V17, V35: only bits 7:0 of the value are the command. -/
theorem test_wrCommand :
    reaches .readAtaData (.wrCommand 0x01A0) idle = true ∧
    faultsWith .ataUnknown (.wrCommand 0x00EC) idle = true := by decide

/-- V53 (bytes in order, the drain completes with the interrupt), V61. -/
theorem test_dmard :
    (after (.dmard 2) (streamingDma 0)).map (fun t => (t.response, t.dmaHead, t.irq)) =
      some (.bytes [0x5E, 0x5F], 2, false) ∧
    (after (.dmard 65536) (streamingDma 0)).map (fun t => (t.response, t.status, t.irq)) =
      some (.bytes [0x5E, 0x5F, 0x60], 0x0040, true) ∧
    faultsWith .dmaState (.dmard 16) idle = true ∧ faultsWith .dmaState (.dmard 0) (streamingDma 0) = true := by
  decide

/-- V70, V73: the soft reset of a bind; CHECK stays, DRQ stays, no interrupt. -/
theorem test_bind :
    (after (.bind none) idle).map (fun t => (t.sectnum, t.status, t.irq)) = some (0x0007, 0x0040, false) ∧
    (after (.bind none) { idle with status := 0x0041, error := 0x0004 }).map (fun t => (t.status, t.error)) =
      some (0x0041, 0x0000) ∧
    (after (.bind none) (inPacket 0)).map State.status = some 0x0048 := by decide

/-- V71: a disc's format nibble beside PAUSE. -/
theorem test_bind_disc : ∃ t, exec (.bind (some td1)) idleNoDisc = .next t ∧ t.sectnum = 0x0081 :=
  ⟨bindDisc (some td1) idleNoDisc, by
    simp only [exec, execBind, if_pos td1_obligation]
    rfl, by decide⟩

/-- U25: a disc outside its obligation. -/
theorem test_bind_refuses : exec (.bind (some hugeDisc)) idle = .refused .discOutsideObligation := by
  simp only [exec, execBind, if_neg hugeDisc_obligation]

/-! ### ATA commands -/

/-- V30, V31, V32, V33, V34. -/
theorem test_ata_complete :
    (after .ataNop idle).map (fun t => (t.error, t.status, t.intreason, t.irq)) =
      some (0x0004, 0x0041, 0x0003, true) ∧
    (after .ataSoftReset { idle with sectnum := 0x0082, features := 1 }).map
      (fun t => (t.sectnum, t.status, t.features)) = some (0x0081, 0x0040, 1) ∧
    (after .ataSoftReset { idleNoDisc with sectnum := 0x0001 }).map State.sectnum = some 0x0007 ∧
    (after .ataSetFeatures { idle with status := 0x0041, error := 0x0004 }).map
      (fun t => (t.status, t.error, t.irq)) = some (0x0040, 0x0000, true) := by decide

/-- V21, V26, V35, P1 step 1. -/
theorem test_ata_packet_and_faults :
    (after .ataPacketCmd (inPacket 6)).map (fun t => (t.pioHead, t.pioSize, t.status, t.intreason, t.irq)) =
      some (0, 12, 0x0008, 0x0001, false) ∧
    (after .ataNop (streamingDma 3)).map (fun t => (t.status, t.cdr.remaining)) = some (0x0041, 0) ∧
    faultsWith .ataUnsupported .ataExecDiag idle = true ∧
    faultsWith .ataUnsupported .ataIdentifyDev idle = true ∧
    faultsWith .ataUnknown (.ataUnknown 0xFF) idle = true := by decide

/-! ### SPI commands -/

/-- P1, V47, V48, V49, V49a. -/
theorem test_spi_no_data :
    (after .spiTestUnit (inPacket 10)).map (fun t => (t.status, t.intreason, t.irq)) =
      some (0x0040, 0x0003, true) ∧
    (after .spiChkSecu (inPacket 10)).map State.phase = some .readAtaCmd ∧
    (after (.spiCdSeek 3) (inPacket 10)).map State.sectnum = some 0x0082 ∧
    (after .spiCdPlay inPacketNoDisc).map State.sectnum = some 0x0001 ∧
    (after .spiCdScan inPacketNoDisc).map State.sectnum = some 0x0001 ∧
    faultsWith .spiUnsupported .spiCdOpen (inPacket 10) = true ∧
    faultsWith .spiUnsupported .spiCdRead2 (inPacket 10) = true ∧
    faultsWith .spiUnknown (.spiUnknown 0x01) (inPacket 10) = true := by decide

/-- V47: the seek parameters at the bounds of their cases. -/
theorem test_spiCdSeek_params :
    faultsWith .badParam (.spiCdSeek 0) (inPacket 10) = true ∧
    (after (.spiCdSeek 1) (inPacket 10)).map State.sectnum = some 0x0081 ∧
    (after (.spiCdSeek 2) (inPacket 10)).map State.sectnum = some 0x0081 ∧
    (after (.spiCdSeek 4) (inPacket 10)).map State.sectnum = some 0x0081 ∧
    faultsWith .badParam (.spiCdSeek 5) (inPacket 10) = true ∧
    faultsWith .badParam (.spiCdSeek 15) (inPacket 10) = true := by decide

/-- P2, V49c, V49e: the status reply. -/
theorem test_spiReqStat :
    (after (.spiReqStat 0 10) (inPacket 10)).map (fun t => (t.pioBuf.readRange 0 10, t.status, t.byteCount)) =
      some ([0x01, 0x80, 0x04, 0x02, 0, 0, 0, 0, 0, 0], 0x0008, 0x000A) ∧
    (after (.spiReqStat 2 4) inPacketNoDisc).map (fun t => (t.pioBuf.readRange 0 4, t.intreason)) =
      some ([0x04, 0x02, 0x00, 0x00], 0x0002) := by decide

/-- V37, V38, P3 step 7. -/
theorem test_spiReqMode_spiSetMode :
    (after (.spiReqMode 18 8) (inPacket 10)).map (fun t => t.pioBuf.readRange 0 8) =
      some [0x52, 0x65, 0x76, 0x20, 0x36, 0x2E, 0x34, 0x33] ∧
    (after (.spiReqMode 26 6) (inPacket 10)).map (fun t => t.pioBuf.readRange 0 6) =
      some [0x39, 0x39, 0x30, 0x34, 0x30, 0x38] ∧
    (after (.spiSetMode 18 8) (inPacket 10)).map
      (fun t => (t.phase, t.pioOffset, t.pioSize, t.intreason, t.irq)) =
      some (.readSpiData, 18, 8, 0x0000, true) := by decide

/-- V44, V45, V46. -/
theorem test_spi_fixed_replies :
    (after (.spiReqError 10) (inPacket 10)).map (fun t => t.pioBuf.readRange 0 10) =
      some [0xF0, 0, 0, 0, 0, 0, 0, 0, 0, 0] ∧
    (after (.spiGetScd 0 100) (inPacket 10)).map (fun t => (t.pioBuf.readRange 0 5, t.byteCount)) =
      some ([0x00, 0x15, 0x00, 0x64, 0x00], 0x0064) ∧
    (after (.spiGetScd 1 14) (inPacket 10)).map (fun t => t.pioBuf.readRange 0 4) =
      some [0x00, 0x15, 0x00, 0x0E] ∧
    (after .spiReqSecu (inPacket 10)).map (fun t => (t.pioSize, t.byteCount)) = some (126, 0x007E) := by decide +kernel

/-- V40, V41: the slots of tracks 1, 2 and 3 of TD1, and an unused slot. -/
theorem test_spiGetToc :
    (after (.spiGetToc false 12) (inPacket 10)).map (fun t => t.pioBuf.readRange 0 12) =
      some [0x41, 0x00, 0x00, 0x96, 0x01, 0x00, 0x03, 0xE8, 0xFF, 0xFF, 0xFF, 0xFF] ∧
    (after (.spiGetToc true 12) (inPacket 10)).map (fun t => (t.pioBuf.readRange 8 4, t.byteCount)) =
      some ([0x41, 0x00, 0xAF, 0xC8], 0x000C) := by decide +kernel

/-- V42, V43. -/
theorem test_spiReqSes :
    (after (.spiReqSes 0 6) (inPacket 10)).map (fun t => t.pioBuf.readRange 0 6) =
      some [0x01, 0x00, 0x02, 0x08, 0x61, 0x1E] ∧
    (after (.spiReqSes 2 6) (inPacket 10)).map (fun t => t.pioBuf.readRange 0 6) =
      some [0x01, 0x00, 0x03, 0x00, 0xAF, 0xC8] := by decide

/-- V50, V51: the address in minutes, seconds, frames; V52: a big-endian FAD. -/
theorem test_getFad :
    getFad 2 0 0 true = 9000 ∧ getFad 0 2 0 true = 150 ∧ getFad 0x00 0xB0 0x5E true = 13294 ∧
    getFad 0x00 0xB0 0x5E false = 45150 ∧ getFad 0x00 0x00 0xB0 false = 176 := by decide

theorem refillCount_one {s : State} (h : s.cdr.remaining = 1) : refillCount dmaSectorBudget s = 1 := by
  have := Laws.one_le_dmaSectorBudget
  unfold refillCount
  omega

/-- P4 with count 1: the sector's byte at index 0, the record one sector on, the phase armed. -/
theorem test_spiCdRead_pio : ∃ t, exec (.spiCdRead false 0 0 0x00 0xB0 0x5E 1) (inPacket 10) = .next t ∧
    t.pioBuf.read 0 = 0x5E ∧ t.pioSize = 1 ∧ t.cdr = ⟨false, 0, 0, 45151, 0⟩ ∧ t.status = 0x0008 ∧
    t.phase = .writeSpiData := by
  have hb : ∀ s : State, s.cdr.remaining = 1 → s.disc = some td1 → s.cdr.fad = 45150 → s.cdr.fmt = 0 →
      s.cdr.mask = 0 → refillBytes dmaSectorBudget s = [0x5E] := by
    intro s h h1 h2 h3 h4
    rw [refillBytes, refillCount_one h, h1, h2, h3, h4]
    rfl
  refine ⟨refillPio pioSectorBudget
    { spiPreamble (inPacket 10) with cdr := ⟨false, 0, 0, 45150, 1⟩ }, ?_, ?_, ?_, ?_, ?_, ?_⟩
  · refine congrArg Host.Outcome.next (if_neg (Nat.not_lt.mpr ?_))
    exact Nat.le_trans (Nat.le_of_eq (congrArg List.length (hb _ rfl rfl rfl rfl rfl))) (by decide)
  · show ((inPacket 10).pioBuf.writeRange 0 (refillBytes dmaSectorBudget _)).read 0 = _
    rw [hb _ rfl rfl rfl rfl rfl]
    rfl
  · show (refillBytes dmaSectorBudget _).length = _
    rw [hb _ rfl rfl rfl rfl rfl]
    rfl
  · show Cdr.advance _ (refillCount dmaSectorBudget _) = _
    rw [refillCount_one rfl]
    rfl
  · rfl
  · rfl

/-- V58: count 0 by DMA is one empty refill, without an interrupt. -/
theorem test_spiCdRead_dma :
    (after (.spiCdRead false 0 0 0x00 0xB0 0x5E 0) { inPacketNoDisc with features := 1 }).map
      (fun t => (t.phase, t.status, t.intreason, t.irq)) =
      some (.writeDmaData, 0x0080, 0x0001, false) := by decide

/-! ### Where clauses meet: the last operand that runs and the first that faults -/

/-- V39, V49b, V49h, V43 and rules R157, R159, R168: sizes at the end of each reply. -/
theorem test_reply_bounds :
    reaches .writeSpiData (.spiReqStat 4 6) (inPacket 10) = true ∧
    faultsWith .oversize (.spiReqStat 4 7) (inPacket 10) = true ∧
    reaches .writeSpiData (.spiReqMode 26 6) (inPacket 10) = true ∧
    faultsWith .oversize (.spiReqMode 26 7) (inPacket 10) = true ∧
    reaches .readSpiData (.spiSetMode 28 4) (inPacket 10) = true ∧
    faultsWith .oversize (.spiSetMode 28 5) (inPacket 10) = true ∧
    reaches .writeSpiData (.spiReqError 10) (inPacket 10) = true ∧
    faultsWith .oversize (.spiReqError 11) (inPacket 10) = true ∧
    reaches .writeSpiData (.spiGetScd 2 100) (inPacket 10) = true ∧
    faultsWith .oversize (.spiGetScd 2 101) (inPacket 10) = true ∧
    reaches .writeSpiData (.spiGetToc false 408) (inPacket 10) = true ∧
    faultsWith .oversize (.spiGetToc false 409) (inPacket 10) = true ∧
    reaches .writeSpiData (.spiReqSes 2 6) (inPacket 10) = true ∧
    faultsWith .oversize (.spiReqSes 2 7) (inPacket 10) = true := by decide +kernel

/-- V43 (session 3 of 2), V49d, and rule R159's bound on track numbers at 0, 99 and 100. -/
theorem test_toc_and_session_faults :
    faultsWith .bounds (.spiReqSes 3 6) (inPacket 10) = true ∧
    faultsWith .noDisc (.spiGetToc false 408) inPacketNoDisc = true ∧
    faultsWith .noDisc (.spiReqSes 0 6) inPacketNoDisc = true ∧
    faultsWith .bounds (.spiGetToc false 8) { inPacket 10 with
      disc := some { td1 with toc0 := ⟨⟨0, 0, 0, 0⟩, track2, 0, 0⟩ } } = true ∧
    reaches .writeSpiData (.spiGetToc false 8) { inPacket 10 with
      disc := some { td1 with toc0 := ⟨⟨99, 0, 0, 0⟩, ⟨99, 0, 0, 0⟩, 0, 0⟩ } } = true ∧
    faultsWith .bounds (.spiGetToc false 8) { inPacket 10 with
      disc := some { td1 with toc0 := ⟨⟨99, 0, 0, 0⟩, ⟨100, 0, 0, 0⟩, 0, 0⟩ } } = true := by decide +kernel

/-- A faulted block has no successor (rule R100); a packet command outside its phase faults (rule R112). -/
theorem test_faulted_and_out_of_phase :
    after .rdStatus { idle with faulted := some .bounds } = none ∧
    faultsWith .illegalEvent .spiTestUnit idle = true := by decide

/-! ### Witnesses: for every obligation with hypotheses, a state and operands that meet all of them -/

theorem test_witness_DecodeOfEncodeIsTheInstruction :
    Instr.wellFormed (.bind (some td1)) ∧ Instr.wellFormed (.ataUnknown 0x01) ∧
    Instr.wellFormed (.spiCdRead true 7 0xF 0xFF 0xFF 0xFF 0xFFFFFF) ∧ Instr.wellFormed (.dmard 65536) :=
  ⟨td1_obligation, by decide, trivial, trivial⟩

theorem test_witness_DecodedInstructionsAreWellFormed :
    (decode (.ata 0xEC) = .ok (.ataUnknown 0xEC) ∧ ∀ d, Instr.ataUnknown 0xEC ≠ .bind (some d)) ∧
    decodeHost ⟨0x1A, .disc none⟩ = .ok (.bind none) :=
  ⟨⟨rfl, nofun⟩, rfl⟩

theorem test_witness_OperationsOutsideTheSlotTableAreRefused :
    ∀ code ∈ ([10, 15, 25, 27, 31] : List (BitVec 5)),
      ({ idle with pending := [⟨code, .absent⟩] } : State).pending = [⟨code, .absent⟩] ∧
      ((10 ≤ code.toNat ∧ code.toNat ≤ 15) ∨ code.toNat = 25 ∨ 27 ≤ code.toNat) := by
  intro code h
  refine ⟨rfl, ?_⟩
  revert code
  decide

theorem test_witness_StepPerformsTheNextOperation :
    idle.pending = [] ∧
    (({ idle with pending := [⟨0x08, .absent⟩] } : State).pending = [⟨0x08, .absent⟩] ∧
      decodeHost ⟨0x08, .absent⟩ = .ok .rdStatus) ∧
    (({ idle with pending := [⟨0x0F, .absent⟩] } : State).pending = [⟨0x0F, .absent⟩] ∧
      decodeHost ⟨0x0F, .absent⟩ = .error (.noSuchSlot 0x0F)) :=
  ⟨rfl, ⟨rfl, rfl⟩, ⟨rfl, rfl⟩⟩

theorem test_witness_SixthPacketWordPerformsItsSpiCommand :
    (inPacket 10).faulted = none ∧ (inPacket 10).phase = .readAtaData ∧ (inPacket 10).pioHead = 10 ∧
    (inPacket 10).pioSize = 12 ∧ (inPacket 10).pioBuf.wf = true := by decide

/-- The one hypothesis `faulted = none` of: WrCommandPerformsItsAtaCommand,
PlainReadsReturnTheRegisterAndChangeNothing, RdStatusReturnsStatusAndClearsIrq,
WritesToDevctrlAndDrvselChangeNothing, WrFeaturesStoresTheWholeValue, ByteCountHalvesAreWrittenSeparately,
WritesToReadOnlySlotsFault, AtaNopSetsAbrtAndCheckAndCompletes, SoftResetAndSetFeaturesComplete,
PacketCmdArmsThePacketReceipt, UnsupportedAtaCommandsFault. -/
theorem test_witness_unfaulted : idle.faulted = none ∧ (streamingDma 3).faulted = none := by decide

theorem test_witness_RdDataFaultsOutOfBoundsOrOutOfPhase :
    (idle.faulted = none ∧ idle.pioSize < idle.pioHead + 2) ∧
    ((inPacket 10).faulted = none ∧ (inPacket 10).pioHead + 2 ≤ (inPacket 10).pioSize ∧
      (inPacket 10).phase = .readAtaData) ∧
    ((receiving 2).faulted = none ∧ (receiving 2).pioHead + 2 ≤ (receiving 2).pioSize ∧
      (receiving 2).phase = .readSpiData) := by decide

theorem test_witness_RdDataInsideTheBufferReturnsTheNextWord :
    (sending 2).faulted = none ∧ (sending 2).phase = .writeSpiData ∧
    (sending 2).pioHead + 2 < (sending 2).pioSize := by decide

theorem test_witness_LastRdDataCompletesTheCommand :
    (sending 4).faulted = none ∧ (sending 4).phase = .writeSpiData ∧
    (sending 4).pioHead + 2 = (sending 4).pioSize ∧ (sending 4).cdr.remaining = 0 := by decide

/-- A PIO read of a bound disc with three sectors left and its last word unread. -/
def streamingPio : State := { sending 4 with cdr := ⟨false, 0, 0, 45150, 3⟩ }

theorem disc_of_idle {s : State} (h : s.disc = some td1) : DiscKeepsObligation s := by
  intro d hd
  rw [h] at hd
  cases hd
  exact td1_obligation

theorem disc_none {s : State} (h : s.disc = none) : DiscKeepsObligation s := by
  intro d hd
  rw [h] at hd
  cases hd

theorem test_witness_DrainingRdDataRefillsThePioBuffer :
    streamingPio.faulted = none ∧ streamingPio.phase = .writeSpiData ∧
    streamingPio.pioHead + 2 = streamingPio.pioSize ∧ 0 < streamingPio.cdr.remaining ∧
    streamingPio.cdr.dma = false ∧ streamingPio.pioBuf.wf = true ∧ DiscKeepsObligation streamingPio :=
  ⟨rfl, rfl, rfl, by decide, rfl, rfl, disc_of_idle rfl⟩

theorem test_witness_WrDataFaultsOversizeOrOutOfPhase :
    (idle.faulted = none ∧ idle.pioBuf.wf = true ∧ idle.pioSize < idle.pioHead + 2) ∧
    ((sending 4).faulted = none ∧ (sending 4).pioBuf.wf = true ∧
      (sending 4).pioHead + 2 ≤ (sending 4).pioSize ∧ (sending 4).phase = .writeSpiData) := by decide

theorem test_witness_WrDataBelowTheThresholdOnlyStores :
    ((inPacket 8).faulted = none ∧ (inPacket 8).pioBuf.wf = true ∧
      (inPacket 8).pioHead + 2 ≤ (inPacket 8).pioSize ∧ (inPacket 8).phase = .readAtaData ∧
      (inPacket 8).pioHead + 2 ≠ 12) ∧
    ((receiving 0).faulted = none ∧ (receiving 0).pioBuf.wf = true ∧
      (receiving 0).pioHead + 2 ≤ (receiving 0).pioSize ∧ (receiving 0).phase = .readSpiData ∧
      (receiving 0).pioHead + 2 ≠ (receiving 0).pioSize) := by decide

theorem test_witness_LastPayloadWordCopiesIntoHwInfo :
    (receiving 2).faulted = none ∧ (receiving 2).phase = .readSpiData ∧ (receiving 2).pioBuf.wf = true ∧
    (receiving 2).pioHead + 2 = (receiving 2).pioSize ∧ (receiving 2).pioOffset + (receiving 2).pioSize ≤ 32 := by
  decide

theorem test_witness_DmardOutsideItsPhaseOrForNothingFaults :
    (idle.faulted = none ∧ idle.phase ≠ .writeDmaData) ∧
    ((streamingDma 3).faulted = none ∧ (0 : Nat) < 1) := by decide

theorem test_witness_DmardBelowTheDrainReturnsTheNextBytes :
    (streamingDma 3).faulted = none ∧ (streamingDma 3).phase = .writeDmaData ∧ 1 ≤ (2 : Nat) ∧
    (streamingDma 3).dmaHead + 2 < (streamingDma 3).dmaSize := by decide

theorem test_witness_DrainingDmardCompletesTheCommand :
    (streamingDma 0).faulted = none ∧ (streamingDma 0).phase = .writeDmaData ∧ 1 ≤ (3 : Nat) ∧
    (streamingDma 0).dmaHead ≤ (streamingDma 0).dmaSize ∧
    (streamingDma 0).dmaSize ≤ (streamingDma 0).dmaHead + 3 ∧ (streamingDma 0).cdr.remaining = 0 := by decide

theorem test_witness_DrainingDmardRefillsSilently :
    (streamingDma 3).faulted = none ∧ (streamingDma 3).phase = .writeDmaData ∧ 1 ≤ (65536 : Nat) ∧
    (streamingDma 3).dmaHead ≤ (streamingDma 3).dmaSize ∧
    (streamingDma 3).dmaSize ≤ (streamingDma 3).dmaHead + 65536 ∧ 0 < (streamingDma 3).cdr.remaining ∧
    (streamingDma 3).cdr.dma = true ∧ (streamingDma 3).dmaBuf.wf = true ∧
    DiscKeepsObligation (streamingDma 3) :=
  ⟨rfl, rfl, by decide, by decide, by decide, by decide, rfl, rfl, disc_none rfl⟩

theorem test_witness_BindReplacesTheDiscAndSoftResets : idle.faulted = none ∧ td1.meetsObligation :=
  ⟨rfl, td1_obligation⟩

theorem test_witness_BindRefusesADiscOutsideItsObligation : ¬ hugeDisc.meetsObligation := hugeDisc_obligation

/-- The hypotheses of the packet commands' statements (NoDataCommandsComplete,
PlayScanAndSeekSetTheDriveStatus with parameters of each case, UnsupportedSpiCommandsFault). -/
theorem test_witness_packet_commands :
    (inPacket 10).faulted = none ∧ (inPacket 10).phase = .readAtaData ∧
    ((4 : BitVec 4) = 1 ∨ (4 : BitVec 4) = 2 ∨ (4 : BitVec 4) = 4) ∧ (3 : BitVec 4) = 3 ∧
    ((5 : BitVec 4) = 0 ∨ 4 < (5 : BitVec 4).toNat) := by decide

theorem test_witness_ReqStatArmsTheStatusReply :
    (inPacket 10).faulted = none ∧ (inPacket 10).phase = .readAtaData ∧ (inPacket 10).pioBuf.wf = true ∧
    (4 : Byte).toNat + (6 : Byte).toNat ≤ 10 ∧ 10 < (4 : Byte).toNat + (7 : Byte).toNat := by decide

theorem test_witness_ReqModeArmsTheHwInfoSlice :
    (inPacket 10).faulted = none ∧ (inPacket 10).phase = .readAtaData ∧ (inPacket 10).pioBuf.wf = true ∧
    (26 : Byte).toNat + (6 : Byte).toNat ≤ 32 ∧ 32 < (26 : Byte).toNat + (7 : Byte).toNat := by decide

theorem test_witness_ReqErrorGetScdAndReqSecuArmTheirReplies :
    (inPacket 10).faulted = none ∧ (inPacket 10).phase = .readAtaData ∧ (inPacket 10).pioBuf.wf = true ∧
    (10 : Byte).toNat ≤ 10 ∧ 10 < (11 : Byte).toNat ∧
    (100 : BitVec 16).toNat ≤ 100 ∧ 100 < (101 : BitVec 16).toNat := by decide

theorem test_witness_GetTocArmsTheTocReply :
    (inPacket 10).faulted = none ∧ (inPacket 10).phase = .readAtaData ∧ (inPacket 10).pioBuf.wf = true ∧
    (inPacket 10).disc = some td1 ∧ td1.toc1 = (if true then td1.toc1 else td1.toc0) ∧
    1 ≤ td1.toc1.firstTrack.num ∧ td1.toc1.lastTrack.num ≤ 99 ∧
    (408 : BitVec 16).toNat ≤ 408 ∧ 408 < (409 : BitVec 16).toNat := by decide

/-- The track numbers and session numbers of the fault clauses. -/
theorem test_witness_TocAndSessionRequestsFaultWithoutAnAnswer :
    (inPacketNoDisc.faulted = none ∧ inPacketNoDisc.phase = .readAtaData ∧ inPacketNoDisc.disc = none) ∧
    ((inPacket 10).faulted = none ∧ (inPacket 10).phase = .readAtaData ∧ (inPacket 10).disc = some td1) ∧
    (let toc : Toc := ⟨⟨0, 0, 0, 0⟩, track2, 0, 0⟩
     toc.firstTrack.num ≤ toc.lastTrack.num ∧ (toc.firstTrack.num < 1 ∨ 99 < toc.lastTrack.num)) ∧
    (let toc : Toc := ⟨track1, ⟨100, 0, 0, 0⟩, 0, 0⟩
     toc.firstTrack.num ≤ toc.lastTrack.num ∧ (toc.firstTrack.num < 1 ∨ 99 < toc.lastTrack.num)) ∧
    td1.numSessions < (3 : Byte).toNat ∧ ({ td1 with numSessions := 0 } : Disc).numSessions = 0 := by decide

theorem test_witness_ReqSesArmsTheSessionReply :
    (inPacket 10).faulted = none ∧ (inPacket 10).phase = .readAtaData ∧ (inPacket 10).pioBuf.wf = true ∧
    (inPacket 10).disc = some td1 ∧ (2 : Byte).toNat ≤ td1.numSessions ∧ 1 ≤ td1.numSessions ∧
    (3, 45000) = ((Disc.getSession td1 1).firstTrack.num, (Disc.getSession td1 1).firstTrack.fad) ∧
    (2, 549150) = (td1.numSessions, (Disc.getSession td1 1).leadoutFad) ∧
    (6 : Byte).toNat ≤ 6 ∧ 6 < (7 : Byte).toNat := by decide

theorem test_witness_SetModeArmsThePayloadReceipt :
    (inPacket 10).faulted = none ∧ (inPacket 10).phase = .readAtaData ∧ (inPacket 10).pioBuf.wf = true ∧
    (28 : Byte).toNat + (4 : Byte).toNat ≤ 32 ∧ 32 < (28 : Byte).toNat + (5 : Byte).toNat := by decide

theorem test_witness_CdReadByPioArmsTheFirstBuffer :
    (inPacket 10).faulted = none ∧ (inPacket 10).phase = .readAtaData ∧
    (inPacket 10).features.getLsbD 0 = false ∧ (inPacket 10).pioBuf.wf = true ∧
    DiscKeepsObligation (inPacket 10) :=
  ⟨rfl, rfl, rfl, rfl, disc_of_idle rfl⟩

/-- The packet phase with FEATURES.DMA set. -/
def inPacketDma : State := { inPacket 10 with features := 1 }

theorem test_witness_CdReadByDmaFillsTheBufferSilently :
    inPacketDma.faulted = none ∧ inPacketDma.phase = .readAtaData ∧ inPacketDma.features.getLsbD 0 = true ∧
    inPacketDma.dmaBuf.wf = true ∧ DiscKeepsObligation inPacketDma :=
  ⟨rfl, rfl, rfl, rfl, disc_of_idle rfl⟩

theorem test_witness_PacketCommandsFaultOutsideThePacketPhase :
    Instr.spiTestUnit.isSpi = true ∧ idle.faulted = none ∧ idle.phase ≠ .readAtaData := by decide

theorem test_witness_AFaultedBlockHasNoSuccessor :
    ({ idle with faulted := some .bounds } : State).faulted ≠ none := by decide

theorem test_witness_AFaultIsNotReportedToTheHost :
    ∃ t, exec .rdData idle = .next t ∧ t.faulted ≠ none := ⟨_, rfl, by decide⟩

theorem test_witness_OnlyRdStatusClearsIrq :
    ∃ t, exec .rdStatus (sending 0) = .next t ∧ (sending 0).irq = true ∧ t.irq = false :=
  ⟨_, rfl, by decide, by decide⟩

theorem test_witness_IrqIsRaisedOnlyAtPhaseBoundaries :
    ∃ t, exec .ataSetFeatures idle = .next t ∧ idle.irq = false ∧ t.irq = true :=
  ⟨_, rfl, by decide, by decide⟩

theorem test_witness_OnlyAtaNopSetsCheck :
    ∃ t, exec .ataNop idle = .next t ∧ idle.check = false ∧ t.check = true :=
  ⟨_, rfl, by decide, by decide⟩

theorem test_witness_OnlySetModesLastWordChangesHwInfo :
    ∃ t, exec (.wrData 0x4443) (receiving 2) = .next t ∧ t.hwInfo ≠ (receiving 2).hwInfo := by
  refine ⟨_, rfl, fun h => ?_⟩
  have h' := congrArg (fun v : Vector Byte 32 => v[18]) h
  revert h'
  decide

/-- The hypothesis `exec i s = .next t` (and the changed fields) of FeaturesAndDiscHaveOneWriterEach and
CursorsNeverMoveBackExceptToZero. -/
theorem test_witness_one_writer :
    (∃ t, exec (.wrFeatures 1) idle = .next t ∧ t.features ≠ idle.features) ∧
    (∃ t, exec (.bind none) idle = .next t ∧ t.disc ≠ idle.disc) :=
  ⟨⟨_, rfl, by decide⟩, ⟨_, rfl, by decide⟩⟩

theorem test_witness_ByteCountControlsNothing :
    ¬ readsByteCount .rdData ∧ ∃ t, exec .rdData (sending 0) = .next t :=
  ⟨by unfold readsByteCount; decide, _, rfl⟩

theorem inv_inPacketDma : inPacketDma.Inv := by
  refine ⟨⟨rfl, rfl⟩, fun _ => ?_⟩
  exact {
    registers := ⟨rfl, .inl rfl⟩
    error := .inl rfl
    sectnum := by decide
    pioCursor := by decide
    dmaCursor := by decide
    cursors := ⟨rfl, by decide⟩
    stream := ⟨nofun, fun h => absurd h (by decide)⟩
    count := by decide
    disc := disc_of_idle rfl }

theorem inv_streamingDma : (streamingDma 3).Inv := by
  refine ⟨⟨rfl, rfl⟩, fun _ => ?_⟩
  exact {
    registers := ⟨rfl, .inl rfl⟩
    error := .inl rfl
    sectnum := by decide
    pioCursor := by decide
    dmaCursor := by decide
    cursors := ⟨rfl, rfl⟩
    stream := ⟨fun _ => rfl, fun _ => .inr rfl⟩
    count := by decide
    disc := disc_none rfl }

/-- A request pending does not touch the invariant. -/
theorem inv_request {s : State} (op : HostOp) (h : s.Inv) : (s.request op).Inv :=
  ⟨h.1, fun hf => ⟨(h.2 hf).registers, (h.2 hf).error, (h.2 hf).sectnum, (h.2 hf).pioCursor,
    (h.2 hf).dmaCursor, (h.2 hf).cursors, (h.2 hf).stream, (h.2 hf).count, (h.2 hf).disc⟩⟩

/-- The DMA-phase witness with a stale byte beyond `dma_size`, where the two states may differ. -/
theorem test_witness_StaleBufferBytesAreNeverObserved :
    let s := (streamingDma 3).request ⟨0x09, .count 2⟩
    let s' : State := { s with dmaBuf := s.dmaBuf ++ [(7, 0xAA)] }
    s.Inv ∧ s'.Canonical ∧ SameButStale s s' ∧ ∃ t, step s = .next t :=
  ⟨inv_request _ inv_streamingDma, ⟨rfl, rfl⟩, ⟨rfl, fun _ h => absurd h (Nat.not_lt_zero _), by decide⟩,
    _, rfl⟩

theorem test_witness_PowerOnMeetsTheInvariant : td1.meetsObligation := td1_obligation

theorem test_witness_EveryStepKeepsTheInvariant :
    ((streamingDma 3).request ⟨0x09, .count 2⟩).Inv ∧
    ∃ t, step ((streamingDma 3).request ⟨0x09, .count 2⟩) = .next t :=
  ⟨inv_request _ inv_streamingDma, _, rfl⟩

theorem test_witness_EveryInstructionKeepsTheBuffersCanonical :
    (inPacket 8).Canonical ∧ ∃ t, exec (.wrData 0x1234) (inPacket 8) = .next t :=
  ⟨⟨rfl, rfl⟩, _, rfl⟩

theorem test_witness_SetModeThenReqModeReturnsTheBytesWritten :
    (inPacket 10).faulted = none ∧ (inPacket 10).phase = .readAtaData ∧ (inPacket 10).pioBuf.wf = true ∧
    ([0x41, 0x42, 0x43, 0x44] : List Byte).length = (4 : Byte).toNat ∧ 0 < (4 : Byte).toNat ∧
    (4 : Byte).toNat % 2 = 0 ∧ (28 : Byte).toNat + (4 : Byte).toNat ≤ 32 := by decide

theorem test_witness_DmaReadEndsAfterAllItsRefills :
    (streamingDma 3).Inv ∧ (streamingDma 3).faulted = none ∧ (streamingDma 3).phase = .writeDmaData :=
  ⟨inv_streamingDma, rfl, rfl⟩

/-- The packet phase after a bind (STATUS 0x48), one word short of a DMA CD_READ of no sectors. -/
def boundInPacketDma : State :=
  { inPacketDma with status := 0x0048, pioBuf := [(0, 0x30)], pending := [⟨0x11, .word 0x0000⟩] }

theorem inv_boundInPacketDma : boundInPacketDma.Inv :=
  ⟨⟨rfl, rfl⟩, fun _ => { inv_inPacketDma.2 rfl with registers := ⟨rfl, .inr rfl⟩, error := .inl rfl }⟩

/-- BSY is set and DRDY cleared together (rules R16, R239): 0x80, not 0xC0. -/
theorem test_bind_then_dma_read_shows_busy :
    ∃ t, step boundInPacketDma = .next t ∧ t.faulted = none ∧ t.phase = .writeDmaData ∧ t.status = 0x0080 :=
  ⟨_, rfl, rfl, rfl, rfl⟩

/-- Each clause: a step to 0x80, a bind to 0x48 and to 0x40 in the DMA phase, a step that keeps 0x48, and the
bind with and without a disc. -/
theorem test_witness_StatusShowsOnlyTheTabledValues :
    (boundInPacketDma.Inv ∧ ∃ t, step boundInPacketDma = .next t ∧ t.faulted = none) ∧
    ((inPacketDma.request ⟨0x1A, .disc none⟩).Inv ∧
      ∃ t, step (inPacketDma.request ⟨0x1A, .disc none⟩) = .next t ∧ t.faulted = none ∧ t.status = 0x0048) ∧
    (((streamingDma 3).request ⟨0x1A, .disc none⟩).Inv ∧
      ∃ t, step ((streamingDma 3).request ⟨0x1A, .disc none⟩) = .next t ∧ t.faulted = none ∧
        t.status = 0x0040 ∧ t.phase = .writeDmaData) ∧
    ((boundInPacketDma.request ⟨0x00, .absent⟩).Inv ∧
      ∃ t, step (boundInPacketDma.request ⟨0x00, .absent⟩) = .next t ∧ t.faulted = none ∧ t.status = 0x0048) ∧
    (inPacketDma.Inv ∧ inPacketDma.faulted = none ∧ inPacketDma.phase = .readAtaData ∧
      inPacketDma.features.getLsbD 0 = true ∧ (∀ e, some td1 = some e → e.meetsObligation) ∧
      (∀ e, (none : Option Disc) = some e → e.meetsObligation)) := by
  refine ⟨⟨inv_boundInPacketDma, _, rfl, rfl⟩, ⟨inv_request _ inv_inPacketDma, _, rfl, rfl, rfl⟩,
    ⟨inv_request _ inv_streamingDma, _, rfl, rfl, rfl, rfl⟩,
    ⟨inv_request _ inv_boundInPacketDma, _, rfl, rfl, rfl⟩, inv_inPacketDma, rfl, rfl, rfl, ?_, nofun⟩
  rintro e ⟨⟩
  exact td1_obligation

end Sys2Proof.Tests
end

section
/-! SUPPORT. What an instruction leaves alone: the one writer of each part of the state (spec 10_state.md rules R12,
R20, R21, R28, R29). The drain of a read cursor and the packet commands share one frame. -/

namespace Sys2Proof.Machine.Proofs

open Sys2Proof.Machine.Laws

/-- An answer updates the response and nothing else. -/
theorem answer_eq_update (r : Response) (s : State) : ∃ r', answer r s = { s with response := r' } := by
  rcases answer_cases r s with ⟨-, e⟩ | ⟨-, e⟩
  · exact ⟨r, e⟩
  · exact ⟨s.response, e⟩

/-! ### CHECK under the shared updates -/

/-- A bit write leaves bit 0 unless it writes it. -/
theorem getElem_zero_putBit (r : Reg) (i : Nat) (b : Bool) : (putBit r i b)[0] = if 0 = i then b else r[0] :=
  getLsbD_putBit r i 0 b (by omega)

@[simp] theorem getElem_zero_putCheck (b : Bool) (r : Reg) : (putCheck b r)[0] = b :=
  getElem_zero_putBit r 0 b

@[simp] theorem getElem_zero_putDrq (b : Bool) (r : Reg) : (putDrq b r)[0] = r[0] :=
  getElem_zero_putBit r 3 b

@[simp] theorem getElem_zero_putDrdy (b : Bool) (r : Reg) : (putDrdy b r)[0] = r[0] :=
  getElem_zero_putBit r 6 b

@[simp] theorem getElem_zero_putBsy (b : Bool) (r : Reg) : (putBsy b r)[0] = r[0] :=
  getElem_zero_putBit r 7 b

@[simp] theorem ataPreamble_check (s : State) : (ataPreamble s).check = false := by simp [State.check]

@[simp] theorem ataEnd_check (s : State) : (ataEnd s).check = s.check := by simp [State.check]

@[simp] theorem softReset_check (s : State) : (softReset s).check = s.check := by simp [State.check]

@[simp] theorem ataPacketCmd_check (s : State) : (ataPacketCmd s).check = false := by
  simp [ataPacketCmd_eq, State.check]

@[simp] theorem spiPreamble_check (s : State) : (spiPreamble s).check = s.check := by simp [State.check]

@[simp] theorem spiEnd_check (s : State) : (spiEnd s).check = s.check := by simp [State.check]

@[simp] theorem armPioOut_check (payload : List Byte) (size : Nat) (s : State) :
    (armPioOut payload size s).check = s.check := by simp [State.check]

@[simp] theorem spiRead_check (offset size : Nat) (s : State) : (spiRead offset size s).check = s.check := by
  simp [State.check]

@[simp] theorem refillPio_check (budget : Nat) (s : State) : (refillPio budget s).check = s.check := by
  simp [State.check]

/-! ### The frame of the drain and of the packet commands -/

/-- What neither a drain nor a packet command changes; the cursors they leave or reset. -/
structure DataFrame (s t : State) : Prop where
  features : t.features = s.features
  disc : t.disc = s.disc
  pending : t.pending = s.pending
  hwInfo : t.hwInfo = s.hwInfo
  check : t.check = s.check
  pioHead : t.pioHead = s.pioHead ∨ t.pioHead = 0
  dmaHead : t.dmaHead = s.dmaHead ∨ t.dmaHead = 0

theorem drainCase_frame {s t : State} (h : DrainCase s t) : DataFrame s t := by
  cases h with
  | stay => exact ⟨rfl, rfl, rfl, rfl, rfl, .inl rfl, .inl rfl⟩
  | finish => exact ⟨rfl, rfl, rfl, rfl, spiEnd_check s, .inl rfl, .inl rfl⟩
  | dma => exact ⟨rfl, rfl, rfl, rfl, rfl, .inl rfl, .inr rfl⟩
  | pio => exact ⟨rfl, rfl, rfl, rfl, refillPio_check _ s, .inr rfl, .inl rfl⟩
  | fault => exact ⟨rfl, rfl, rfl, rfl, rfl, .inl rfl, .inl rfl⟩

theorem spiCase_frame {s t : State} (h : SpiCase s t) : DataFrame s t := by
  have hc := spiPreamble_check s
  cases h with
  | fault c => exact ⟨rfl, rfl, rfl, rfl, hc, .inl rfl, .inl rfl⟩
  | finish r hr => exact ⟨rfl, rfl, rfl, rfl, (spiEnd_check _).trans hc, .inl rfl, .inl rfl⟩
  | reply p n => exact ⟨rfl, rfl, rfl, rfl, (armPioOut_check p n _).trans hc, .inr rfl, .inl rfl⟩
  | payload o n => exact ⟨rfl, rfl, rfl, rfl, (spiRead_check o n _).trans hc, .inr rfl, .inl rfl⟩
  | readDma => exact ⟨rfl, rfl, rfl, rfl, hc, .inl rfl, .inr rfl⟩
  | readPio => exact ⟨rfl, rfl, rfl, rfl, (refillPio_check _ _).trans hc, .inr rfl, .inl rfl⟩
  | readFault => exact ⟨rfl, rfl, rfl, rfl, hc, .inl rfl, .inl rfl⟩

/-- A read that advances a cursor leaves what the drain leaves. -/
theorem answer_drainCase_frame (r : Response) {s t : State} (h : DrainCase s t) :
    DataFrame s (answer r t) := by
  obtain ⟨r', e⟩ := answer_eq_update r t
  obtain ⟨hf, hd, hp, hh, hc, hpio, hdma⟩ := drainCase_frame h
  rw [e]
  exact ⟨hf, hd, hp, hh, hc, hpio, hdma⟩

/-! ### One writer each -/

/-- Every instruction but NOP keeps CHECK or clears it (rule R29). -/
theorem effectCase_check {i : Instr} {s t : State} (h : EffectCase i s t) :
    IsAta i .ataNop 0x00 ∨ t.check = s.check ∨ t.check = false := by
  cases h with
  | nop hi => exact .inl hi
  | bind d => exact .inr (.inl (softReset_check _))
  | softReset | setFeatures | packet => exact .inr (.inr (by simp))
  | ataFault c => exact .inr (.inr (ataPreamble_check s))
  | payload v => exact .inr (.inl (by simp [State.check]))
  | packetWord v hi hp hh hb ht => exact .inr (.inl (spiCase_frame ht).check)
  | spi hi hp ht => exact .inr (.inl (spiCase_frame ht).check)
  | readData hi hb hp r ht => exact .inr (.inl (answer_drainCase_frame r ht).check)
  | dma n hi hp hn r ht => exact .inr (.inl (answer_drainCase_frame r ht).check)
  | _ => exact .inr (.inl rfl)

/-- Only the last word of a payload changes the hardware-info block (rules R21, R117). -/
theorem effectCase_hwInfo {i : Instr} {s t : State} (h : EffectCase i s t) :
    t.hwInfo = s.hwInfo ∨
      (s.phase = .readSpiData ∧ s.pioHead + 2 = s.pioSize ∧ ∃ v, i = .wrData v) := by
  cases h with
  | payload v hi hp hb => exact .inr ⟨hp, hb, v, hi⟩
  | packetWord v hi hp hh hb ht => exact .inl (spiCase_frame ht).hwInfo
  | spi hi hp ht => exact .inl (spiCase_frame ht).hwInfo
  | readData hi hb hp r ht => exact .inl (answer_drainCase_frame r ht).hwInfo
  | dma n hi hp hn r ht => exact .inl (answer_drainCase_frame r ht).hwInfo
  | packet => exact .inl (by simp [ataPacketCmd_eq])
  | _ => exact .inl rfl

/-- Only WR FEATURES changes FEATURES, to its value (rule R12). -/
theorem effectCase_features {i : Instr} {s t : State} (h : EffectCase i s t) :
    t.features = s.features ∨ i = .wrFeatures t.features := by
  cases h with
  | features v hi => exact .inr hi
  | packetWord v hi hp hh hb ht => exact .inl (spiCase_frame ht).features
  | spi hi hp ht => exact .inl (spiCase_frame ht).features
  | readData hi hb hp r ht => exact .inl (answer_drainCase_frame r ht).features
  | dma n hi hp hn r ht => exact .inl (answer_drainCase_frame r ht).features
  | packet => exact .inl (by simp [ataPacketCmd_eq])
  | _ => exact .inl rfl

/-- Only BIND changes the disc, to its own (rule R20). -/
theorem effectCase_disc {i : Instr} {s t : State} (h : EffectCase i s t) :
    t.disc = s.disc ∨ i = .bind t.disc := by
  cases h with
  | bind d hi => exact .inr hi
  | packetWord v hi hp hh hb ht => exact .inl (spiCase_frame ht).disc
  | spi hi hp ht => exact .inl (spiCase_frame ht).disc
  | readData hi hb hp r ht => exact .inl (answer_drainCase_frame r ht).disc
  | dma n hi hp hn r ht => exact .inl (answer_drainCase_frame r ht).disc
  | packet => exact .inl (by simp [ataPacketCmd_eq])
  | _ => exact .inl rfl

/-- No instruction touches the operations to come (rule R47). -/
theorem effectCase_pending {i : Instr} {s t : State} (h : EffectCase i s t) : t.pending = s.pending := by
  cases h with
  | packetWord v hi hp hh hb ht => exact (spiCase_frame ht).pending
  | spi hi hp ht => exact (spiCase_frame ht).pending
  | readData hi hb hp r ht => exact (answer_drainCase_frame r ht).pending
  | dma n hi hp hn r ht => exact (answer_drainCase_frame r ht).pending
  | packet => simp [ataPacketCmd_eq]
  | _ => rfl

/-- A cursor that is `a` or 0 after it stood at `a` or before has not moved back except to 0. -/
theorem le_or_eq_zero {a b c : Nat} (h : a ≤ b) (hc : c = b ∨ c = 0) : a ≤ c ∨ c = 0 := by omega

/-- No instruction moves the PIO cursor back except to 0 (rule R28). -/
theorem effectCase_pioHead {i : Instr} {s t : State} (h : EffectCase i s t) :
    s.pioHead ≤ t.pioHead ∨ t.pioHead = 0 := by
  cases h with
  | packet => exact .inr (by simp [ataPacketCmd_eq])
  | packetWord v hi hp hh hb ht => exact le_or_eq_zero (Nat.le_add_right _ 2) (spiCase_frame ht).pioHead
  | spi hi hp ht => exact le_or_eq_zero le_rfl (spiCase_frame ht).pioHead
  | readData hi hb hp r ht =>
    exact le_or_eq_zero (Nat.le_add_right _ 2) (answer_drainCase_frame r ht).pioHead
  | dma n hi hp hn r ht => exact le_or_eq_zero le_rfl (answer_drainCase_frame r ht).pioHead
  | readFault | writeFault | store | payload => exact .inl (Nat.le_add_right _ 2)
  | _ => exact .inl le_rfl

/-- No instruction moves the DMA cursor back except to 0 (rule R28). -/
theorem effectCase_dmaHead {i : Instr} {s t : State} (h : EffectCase i s t) :
    s.dmaHead ≤ t.dmaHead ∨ t.dmaHead = 0 := by
  cases h with
  | packetWord v hi hp hh hb ht => exact le_or_eq_zero le_rfl (spiCase_frame ht).dmaHead
  | spi hi hp ht => exact le_or_eq_zero le_rfl (spiCase_frame ht).dmaHead
  | readData hi hb hp r ht => exact le_or_eq_zero le_rfl (answer_drainCase_frame r ht).dmaHead
  | dma n hi hp hn r ht =>
    exact le_or_eq_zero (Nat.le_add_right _ (dmaTake n s)) (answer_drainCase_frame r ht).dmaHead
  | packet => exact .inl (by simp [ataPacketCmd_eq])
  | _ => exact .inl le_rfl

/-- Settles O48: of the cases of an instruction only NOP's sets CHECK. -/
theorem onlyAtaNopSetsCheck : Obligations.OnlyAtaNopSetsCheck := by
  intro i s t h hs ht
  obtain ⟨-, -, hcase⟩ := exec_cases h
  rcases effectCase_check hcase with hi | hkeep | hclear
  · exact hi
  · exact absurd (ht.symm.trans (hkeep.trans hs)) (by decide)
  · exact absurd (ht.symm.trans hclear) (by decide)

/-- Settles O49: of the cases of an instruction only the last payload word's writes `hw_info`. -/
theorem onlySetModesLastWordChangesHwInfo : Obligations.OnlySetModesLastWordChangesHwInfo := by
  intro i s t h hne
  obtain ⟨-, -, hcase⟩ := exec_cases h
  exact (effectCase_hwInfo hcase).resolve_left hne

/-- Settles O50: each of the three fields by its own frame. -/
theorem featuresAndDiscHaveOneWriterEach : Obligations.FeaturesAndDiscHaveOneWriterEach := by
  intro i s t h
  obtain ⟨-, -, hcase⟩ := exec_cases h
  exact ⟨(effectCase_features hcase).resolve_left, (effectCase_disc hcase).resolve_left,
    (effectCase_pending hcase :)⟩

/-- Settles O51: a cursor is advanced, left, or set to 0 by the case at hand. -/
theorem cursorsNeverMoveBackExceptToZero : Obligations.CursorsNeverMoveBackExceptToZero := by
  intro i s t h
  obtain ⟨-, -, hcase⟩ := exec_cases h
  exact ⟨(effectCase_pioHead hcase :), (effectCase_dmaHead hcase :)⟩

/-! ### The canonical form of the buffers -/

theorem drainCase_canonical {s t : State} (h : DrainCase s t) (hs : s.Canonical) : t.Canonical := by
  obtain ⟨hpio, hdma⟩ := hs
  cases h with
  | dma => exact ⟨hpio, writeRange_wf _ _ hdma⟩
  | pio => exact ⟨writeRange_wf _ _ hpio, hdma⟩
  | _ => exact ⟨hpio, hdma⟩

theorem spiCase_canonical {s t : State} (h : SpiCase s t) (hs : s.Canonical) : t.Canonical := by
  obtain ⟨hpio, hdma⟩ := hs
  cases h with
  | reply => exact ⟨writeRange_wf _ _ hpio, hdma⟩
  | readDma => exact ⟨hpio, writeRange_wf _ _ hdma⟩
  | readPio => exact ⟨writeRange_wf _ _ hpio, hdma⟩
  | _ => exact ⟨hpio, hdma⟩

theorem answer_canonical (r : Response) {s : State} (hs : s.Canonical) : (answer r s).Canonical := by
  obtain ⟨r', e⟩ := answer_eq_update r s
  rw [e]
  exact hs

/-- WR DATA's two bytes keep the canonical form. -/
theorem storeWord_canonical (v : Reg) {s : State} (hs : s.Canonical) : (storeWord v s).Canonical :=
  ⟨writeRange_wf _ _ hs.1, hs.2⟩

theorem effectCase_canonical {i : Instr} {s t : State} (h : EffectCase i s t) (hs : s.Canonical) :
    t.Canonical := by
  cases h with
  | writeFault v | store v | payload v => exact storeWord_canonical v hs
  | packetWord v hi hp hh hb ht => exact spiCase_canonical ht (storeWord_canonical v hs)
  | spi hi hp ht => exact spiCase_canonical ht hs
  | readData hi hb hp r ht => exact answer_canonical r (drainCase_canonical ht hs)
  | dma n hi hp hn r ht => exact answer_canonical r (drainCase_canonical ht hs)
  | packet => rw [ataPacketCmd_eq]; exact hs
  | _ => exact hs

/-- Settles O57: the buffers are written by block copies only, and those keep the form. -/
theorem everyInstructionKeepsTheBuffersCanonical :
    Obligations.EveryInstructionKeepsTheBuffersCanonical := by
  intro i s t hs h
  obtain ⟨-, -, hcase⟩ := exec_cases h
  exact effectCase_canonical hcase hs

end Sys2Proof.Machine.Proofs
end

section
/-! SUPPORT. The invariant (spec 10_state.md rules R26 to R29): the values the registers take, what every phase asks
alike, and the cases of an instruction one by one. -/

namespace Sys2Proof.Machine.Proofs

open Sys2Proof.Machine.Laws

/-! ### Register values -/

/-- INTREASON from its two fields, where no other bit is set. -/
theorem intreason_of_fields {r : Reg} (h : r &&& 0xFFFC#16 = 0) (cod io : Bool) :
    putIo io (putCod cod r) = (if cod then 1#16 else 0) ||| (if io then 2#16 else 0) := by
  rw [intreason_bits, h]
  exact BitVec.zero_or

theorem phaseRegisters_intreason {p : Phase} {i st : Reg} (h : phaseRegisters p i st) :
    i &&& 0xFFFC#16 = 0 := by
  cases p <;> obtain ⟨rfl, -⟩ := h <;> rfl

/-- Between operations STATUS has no bit set but BSY, DRDY, DRQ and CHECK. -/
theorem phaseRegisters_status {p : Phase} {i st : Reg} (h : phaseRegisters p i st) :
    st &&& 0xFF36#16 = 0 := by
  cases p <;> obtain ⟨-, rfl | rfl⟩ := h <;> rfl

/-- A bind keeps INTREASON and gives STATUS the phase's other value or keeps it (90_conflicts.md C6). -/
theorem phaseRegisters_softReset {p : Phase} {i st : Reg} (h : phaseRegisters p i st) :
    phaseRegisters p i (putBsy false (putDrdy true st)) := by
  rw [ready_bits]
  cases p <;> obtain ⟨hi, rfl | rfl⟩ := h
  case readAtaCmd.inl => exact ⟨hi, .inl rfl⟩
  all_goals exact ⟨hi, .inr rfl⟩

/-- What `State.Settled` asks of SECTNUM (rules R14, R32). -/
def SectnumOk (r : Reg) : Prop :=
  r.extractLsb' 8 8 = 0 ∧ (r.extractLsb' 0 4 = drivePause ∨ r.extractLsb' 0 4 = driveStandby ∨
    r.extractLsb' 0 4 = driveNoDisc)

/-- A drive status leaves the high byte and reads back. -/
theorem extract_putDriveStatus (v : BitVec 4) (r : Reg) :
    (putDriveStatus v r).extractLsb' 8 8 = r.extractLsb' 8 8 ∧
      (putDriveStatus v r).extractLsb' 0 4 = v := by
  constructor <;> apply BitVec.eq_of_getLsbD_eq <;> intro j hj
  · rw [BitVec.getLsbD_extractLsb', BitVec.getLsbD_extractLsb', putDriveStatus,
      getLsbD_putField _ _ _ _ (by omega), if_neg (by omega)]
  · rw [BitVec.getLsbD_extractLsb', putDriveStatus, getLsbD_putField _ _ _ _ (by omega), if_pos (by omega)]
    simp [hj]

theorem sectnumOk_putDriveStatus {v : BitVec 4} {r : Reg} (h : SectnumOk r)
    (hv : v = drivePause ∨ v = driveStandby) : SectnumOk (putDriveStatus v r) := by
  obtain ⟨e1, e2⟩ := extract_putDriveStatus v r
  refine ⟨e1.trans h.1, ?_⟩
  rw [e2]
  exact hv.imp_right .inl

/-- The two spellings of SECTNUM after a soft reset agree (rules R34, R138). -/
theorem softReset_sectnum (s : State) : (softReset s).sectnum = sectnumOf s.disc := by
  have h : ∀ f : BitVec 4, putFormat f (putDriveStatus drivePause 0) = 0#8 ++ f ++ 0x1#4 := by decide
  cases hd : s.disc with
  | none => rw [softReset_sectnum_none s hd]; rfl
  | some d => rw [softReset_sectnum_some s d hd, h]; rfl

theorem sectnumOk_sectnumOf (d : Option Disc) : SectnumOk (sectnumOf d) := by
  have h : ∀ f : BitVec 4, (0#8 ++ f ++ 0x1#4).extractLsb' 8 8 = 0 ∧
      (0#8 ++ f ++ 0x1#4).extractLsb' 0 4 = drivePause := by decide
  cases d with
  | none => exact ⟨rfl, .inr (.inr rfl)⟩
  | some d => exact ⟨(h _).1, .inl (h _).2⟩

theorem sectnumOk_softReset (s : State) : SectnumOk (softReset s).sectnum := by
  rw [softReset_sectnum]
  exact sectnumOk_sectnumOf _

/-! ### Power-on -/

/-- The power-on procedure leaves the tabled state and, of the model's own fields, what was there. -/
theorem powerOnReset_eq (d0 : Option Disc) (s : State) :
    powerOnReset d0 s = { State.powerOn d0 with
      pioBuf := s.pioBuf, dmaBuf := s.dmaBuf, pending := s.pending, response := s.response } := by
  have hsect : (powerOnReset d0 s).sectnum = sectnumOf d0 := softReset_sectnum _
  have hstatus : (powerOnReset d0 s).status = 0x0040 :=
    calc (powerOnReset d0 s).status
        = putBsy false (putDrdy true 0) := rfl
      _ = 0x0040 := rfl
  calc powerOnReset d0 s
      = { State.powerOn d0 with
          sectnum := (powerOnReset d0 s).sectnum, status := (powerOnReset d0 s).status
          pioBuf := s.pioBuf, dmaBuf := s.dmaBuf, pending := s.pending, response := s.response } := rfl
    _ = _ := by rw [hsect, hstatus]; rfl

/-- SECTNUM with a disc as the table writes it: the format's low nibble and PAUSE (rule R34). -/
theorem sectnumOf_some (d : Disc) : sectnumOf (some d) = BitVec.ofNat 16 (d.format % 16 * 16 + 1) := by
  have h : ∀ f : BitVec 4, 0#8 ++ f ++ 0x1#4 = BitVec.ofNat 16 (f.toNat * 16 + 1) := by decide
  have e := h (BitVec.ofNat 4 d.format)
  rwa [BitVec.toNat_ofNat] at e

/-- Settles O54: the procedure's state is the table's, field by field. -/
theorem powerOnLeavesTheTabledValues : Obligations.PowerOnLeavesTheTabledValues := by
  intro d0 s
  have hsect : sectnumOf d0 = match d0 with
      | none => 0x0007
      | some d => BitVec.ofNat 16 (d.format % 16 * 16 + 1) := by
    cases d0 with
    | none => rfl
    | some d => exact sectnumOf_some d
  have hnum : ∀ k : Fin 32, k.val < 10 → hwInfoInit[k] = Config.hwInfoInitNum k.val := by
    rintro ⟨k, hk⟩ (h : k < 10)
    interval_cases k <;> rfl
  rw [powerOnReset_eq]
  exact ⟨rfl, rfl, rfl, hsect, rfl, rfl, rfl, rfl, rfl, rfl, hnum, rfl, rfl, rfl, rfl, rfl, rfl, rfl, rfl, rfl⟩

/-- Power-on meets the invariant with any disc, or none, that keeps its obligation. -/
theorem powerOn_inv {d0 : Option Disc} (h : ∀ d, d0 = some d → d.meetsObligation) :
    (State.powerOn d0).Inv :=
  ⟨⟨wf_nil, wf_nil⟩, fun _ =>
    { registers := ⟨rfl, .inl rfl⟩
      error := .inl rfl
      sectnum := sectnumOk_sectnumOf d0
      pioCursor := ⟨le_rfl, Nat.zero_le _, rfl⟩
      dmaCursor := ⟨le_rfl, Nat.zero_le _⟩
      cursors := trivial
      stream := ⟨nofun, fun h => absurd h (Nat.lt_irrefl 0)⟩
      count := Nat.two_pow_pos 24
      disc := h }⟩

/-- Settles O55: the tabled values meet every clause. -/
theorem powerOnMeetsTheInvariant : Obligations.PowerOnMeetsTheInvariant :=
  ⟨fun _ hd => powerOn_inv fun _ e => Option.some.inj e ▸ hd, powerOn_inv nofun⟩

/-! ### What every phase asks alike -/

/-- The clauses of `State.Settled` that do not speak of the phase. -/
structure Sound (s : State) : Prop where
  sectnum : SectnumOk s.sectnum
  pioCursor : s.pioHead ≤ s.pioSize ∧ s.pioSize ≤ 65536 ∧ s.pioHead % 2 = 0
  dmaCursor : s.dmaHead ≤ s.dmaSize ∧ s.dmaSize ≤ 65536
  count : s.cdr.remaining < 2 ^ 24
  disc : ∀ d, s.disc = some d → d.meetsObligation

theorem settled_sound {s : State} (h : s.Settled) : Sound s :=
  ⟨h.sectnum, h.pioCursor, h.dmaCursor, h.count, h.disc⟩

/-- The rest of `State.Settled`, in the idle phase. -/
theorem settled_idle {s : State} (hs : Sound s) (hp : s.phase = .readAtaCmd) (hi : s.intreason = 0x0003)
    (hst : s.status = 0x0040 ∧ s.error = 0x0000 ∨ s.status = 0x0041 ∧ s.error = 0x0004)
    (hr : s.cdr.remaining = 0) : s.Settled where
  registers := by rw [hp]; exact ⟨hi, hst.imp And.left And.left⟩
  error := hst.imp And.right And.symm
  sectnum := hs.sectnum
  pioCursor := hs.pioCursor
  dmaCursor := hs.dmaCursor
  cursors := by rw [phaseCursors, hp]; trivial
  stream := by rw [streaming, hp, hr]; exact ⟨nofun, fun h => absurd h (Nat.lt_irrefl 0)⟩
  count := hs.count
  disc := hs.disc

/-- ABRT stands in the idle phase only, where NOP has left it. -/
theorem settled_error {s : State} (h : s.Settled) (hp : s.phase ≠ .readAtaCmd) : s.error = 0x0000 := by
  refine h.error.resolve_right fun ⟨_, hst⟩ => ?_
  have hreg := h.registers
  rw [hst] at hreg
  revert hreg
  cases e : s.phase
  case readAtaCmd => exact absurd e hp
  all_goals simp [phaseRegisters]

/-- STATUS in the phases that ask for data by PIO. -/
theorem settled_pio_status {s : State} (h : s.Settled)
    (hp : s.phase = .readAtaData ∨ s.phase = .readSpiData ∨ s.phase = .writeSpiData) :
    s.status = 0x0008 ∨ s.status = 0x0048 := by
  have hreg := h.registers
  rcases hp with hp | hp | hp <;> rw [hp] at hreg <;> exact hreg.2

/-- A count is left in the streaming phases only. -/
theorem settled_remaining {s : State} (h : s.Settled) (h1 : s.phase ≠ .writeSpiData)
    (h2 : s.phase ≠ .writeDmaData) : s.cdr.remaining = 0 := by
  by_contra hr
  rcases h.stream.2 (Nat.pos_of_ne_zero hr) with ⟨hp, -⟩ | hp
  · exact h1 hp
  · exact h2 hp

/-! ### ATA commands -/

/-- STATUS after the ATA preamble: BSY alone. -/
theorem settled_ataPreamble_status {s : State} (h : s.Settled) : (ataPreamble s).status = 0x0080 := by
  rw [ataPreamble_status, ataPreamble_bits, phaseRegisters_status h.registers]
  rfl

/-- The preamble drops the count and keeps the rest. -/
theorem settled_ataPreamble_sound {s : State} (h : s.Settled) : Sound (ataPreamble s) :=
  { settled_sound h with count := Nat.two_pow_pos 24 }

/-- An ATA command that completes, with or without NOP's error bits. -/
theorem ataEnd_settled {s : State} (hs : Sound s) (hi : s.intreason &&& 0xFFFC#16 = 0)
    (hst : s.status = 0x0080 ∧ s.error = 0x0000 ∨ s.status = 0x0040 ∧ s.error = 0x0000 ∨
      s.status = 0x0081 ∧ s.error = 0x0004)
    (hr : s.cdr.remaining = 0) : (ataEnd s).Settled := by
  refine settled_idle { hs with } rfl (intreason_of_fields hi true true) ?_ hr
  rw [ataEnd_status, ataEnd_error]
  rcases hst with ⟨h, e⟩ | ⟨h, e⟩ | ⟨h, e⟩ <;> rw [h, e]
  · exact .inl ⟨rfl, rfl⟩
  · exact .inl ⟨rfl, rfl⟩
  · exact .inr ⟨rfl, rfl⟩

/-- PACKET_CMD arms the packet receipt. -/
theorem ataPacketCmd_settled {s : State} (h : s.Settled) : (ataPacketCmd s).Settled := by
  rw [ataPacketCmd_eq, settled_ataPreamble_status h,
    intreason_of_fields (phaseRegisters_intreason h.registers) true false]
  exact
    { settled_ataPreamble_sound h with
      registers := ⟨rfl, .inl rfl⟩
      error := .inl rfl
      pioCursor := ⟨Nat.zero_le 12, Nat.le_of_ble_eq_true rfl, rfl⟩
      cursors := ⟨rfl, Nat.zero_lt_succ 11⟩
      stream := ⟨nofun, fun h => absurd h (Nat.lt_irrefl 0)⟩ }

end Sys2Proof.Machine.Proofs
end

section
/-! SUPPORT. Every step keeps the invariant: the packet commands, the drain, and the cases of an instruction (spec
10_state.md rules R26 to R29; R16 for the STATUS values). -/

namespace Sys2Proof.Machine.Proofs

open Sys2Proof.Machine.Laws

/-! ### Packet commands -/

/-- A settled packet phase whose twelve bytes are in: what an SPI command starts from. -/
structure PacketReceived (s : State) : Prop extends Sound s where
  phase : s.phase = .readAtaData
  intreason : s.intreason = 0x0001
  status : s.status = 0x0008 ∨ s.status = 0x0048
  error : s.error = 0x0000
  remaining : s.cdr.remaining = 0
  packet : s.pioHead = 12 ∧ s.pioSize = 12

/-- The cursor after a word within the armed size keeps its clause. -/
theorem settled_pioCursor_advance {s : State} (h : s.Settled) (hb : s.pioHead + 2 ≤ s.pioSize) :
    s.pioHead + 2 ≤ s.pioSize ∧ s.pioSize ≤ 65536 ∧ (s.pioHead + 2) % 2 = 0 := by
  have := h.pioCursor
  omega

/-- The sixth word of a packet completes it. -/
theorem storeWord_packetReceived (v : Reg) {s : State} (h : s.Settled) (hp : s.phase = .readAtaData)
    (hh : s.pioHead = 10) : PacketReceived (storeWord v s) := by
  have hcur := h.cursors
  have hreg := h.registers
  rw [phaseCursors, hp] at hcur
  rw [hp] at hreg
  obtain ⟨hsize, -⟩ := hcur
  have herror : s.error = 0x0000 := settled_error h (by rw [hp]; nofun)
  have hcount : s.cdr.remaining = 0 := settled_remaining h (by rw [hp]; nofun) (by rw [hp]; nofun)
  exact
    { settled_sound h with
      pioCursor := settled_pioCursor_advance h (by omega)
      phase := hp
      intreason := hreg.1
      status := hreg.2
      error := herror
      remaining := hcount
      packet := ⟨congrArg (· + 2) hh, hsize⟩ }

/-- STATUS after the SPI preamble: BSY alone (rule R16). -/
theorem packetReceived_preamble_status {s : State} (h : PacketReceived s) :
    (spiPreamble s).status = 0x0080 := by
  rw [spiPreamble_status, busy_bits]
  rcases h.status with e | e <;> rw [e] <;> rfl

/-- A completion from a busy or requesting STATUS without CHECK leaves the block idle and settled. -/
theorem spiEnd_settled {s : State} (hs : Sound s) (hi : s.intreason &&& 0xFFFC#16 = 0)
    (hst : s.status &&& 0xFF37#16 = 0) (he : s.error = 0x0000) (hr : s.cdr.remaining = 0) :
    (spiEnd s).Settled := by
  refine settled_idle { hs with } rfl (intreason_of_fields hi true true) (.inl ⟨?_, he⟩) hr
  rw [spiEnd_status, spiEnd_bits, hst]
  rfl

/-- Every packet command that does not fault leaves a settled block. -/
theorem spiCase_settled {s t : State} (h : SpiCase s t) (hs : PacketReceived s) (hf : t.faulted = none) :
    t.Settled := by
  have hst := packetReceived_preamble_status hs
  have hi : (spiPreamble s).intreason &&& 0xFFFC#16 = 0 := by rw [spiPreamble_intreason, hs.intreason]; rfl
  have hcount : ∀ {n m : Nat}, n < 2 ^ 24 → n - m < 2 ^ 24 := fun h => by omega
  have request : putBsy false (putDrq true (spiPreamble s).status) = 0x0008 := by rw [hst]; rfl
  cases h with
  | fault | readFault => cases hf
  | finish r hr =>
    refine spiEnd_settled { hs.toSound with sectnum := ?_ } hi (by rw [hst]; rfl) hs.error hs.remaining
    rcases hr with rfl | rfl | rfl
    · exact hs.sectnum
    · exact sectnumOk_putDriveStatus hs.sectnum (.inl rfl)
    · exact sectnumOk_putDriveStatus hs.sectnum (.inr rfl)
  | reply payload size hl hsize =>
    exact
      { hs.toSound with
        registers := ⟨intreason_of_fields hi false true, .inl request⟩
        error := .inl hs.error
        pioCursor := ⟨Nat.zero_le _, hsize, rfl⟩
        cursors := trivial
        stream := ⟨nofun, fun h => absurd h (Nat.lt_irrefl 0)⟩
        count := Nat.two_pow_pos 24 }
  | payload offset size h =>
    exact
      { hs.toSound with
        registers := ⟨intreason_of_fields hi false false, .inl request⟩
        error := .inl hs.error
        pioCursor := ⟨Nat.zero_le _, by rw [spiRead_pioSize]; omega, rfl⟩
        cursors := h
        stream := ⟨nofun, fun h => absurd h (Nat.lt_irrefl 0)⟩
        count := Nat.two_pow_pos 24 }
  | readDma fmt mask fad count hc hd hl =>
    exact
      { hs.toSound with
        registers := ⟨hs.intreason, .inl hst⟩
        error := .inl hs.error
        dmaCursor := ⟨Nat.zero_le _, hl⟩
        cursors := hs.packet
        stream := ⟨fun _ => rfl, fun _ => .inr rfl⟩
        count := hcount hc }
  | readPio fmt mask fad count hc hd hl =>
    exact
      { hs.toSound with
        registers := ⟨intreason_of_fields hi false true, .inl request⟩
        error := .inl hs.error
        pioCursor := ⟨Nat.zero_le _, hl, rfl⟩
        cursors := trivial
        stream := ⟨nofun, fun _ => .inl ⟨rfl, rfl⟩⟩
        count := hcount hc }

/-! ### The drain -/

/-- STATUS and INTREASON while a payload is sent: what `spi_end` needs. -/
theorem settled_sending_status {s : State} (h : s.Settled)
    (hp : s.phase = .writeSpiData ∨ s.phase = .writeDmaData) : s.status &&& 0xFF37#16 = 0 := by
  have hreg := h.registers
  rcases hp with hp | hp <;> rw [hp] at hreg <;> obtain ⟨-, e | e⟩ := hreg <;> rw [e] <;> rfl

/-- A drain whose count is left refills on the path it streams on (rules R116, R180). -/
theorem settled_streaming_phase {s : State} (h : s.Settled) (hr : 0 < s.cdr.remaining) :
    (s.cdr.dma = true → s.phase = .writeDmaData) ∧ (s.cdr.dma = false → s.phase = .writeSpiData) := by
  obtain ⟨hdma, hcount⟩ := h.stream
  rcases hcount hr with ⟨hp, hd⟩ | hp
  · exact ⟨fun e => absurd (hd.symm.trans e) (by decide), fun _ => hp⟩
  · exact ⟨fun _ => hp, fun e => absurd (e.symm.trans (hdma hp)) (by decide)⟩

/-- A PIO refill finds STATUS as it sets it (rules R118, R182). -/
theorem request_settled_status {s : State} (h : s.Settled) (hp : s.phase = .writeSpiData) :
    putBsy false (putDrq true s.status) = s.status := by
  rcases settled_pio_status h (.inr (.inr hp)) with e | e <;> rw [e] <;> rfl

/-- What a drain leaves of a settled sending phase is settled, or a fault. -/
theorem drainCase_settled {s t : State} (h : DrainCase s t) (hs : s.Settled)
    (hp : s.phase = .writeSpiData ∨ s.phase = .writeDmaData) (hf : t.faulted = none) : t.Settled := by
  have he : s.error = 0x0000 := settled_error hs (by rcases hp with hp | hp <;> rw [hp] <;> nofun)
  have hi := phaseRegisters_intreason hs.registers
  have hcount : ∀ m : Nat, s.cdr.remaining - m < 2 ^ 24 := fun m => by have := hs.count; omega
  cases h with
  | stay => exact hs
  | fault => cases hf
  | finish _ hr => exact spiEnd_settled (settled_sound hs) hi (settled_sending_status hs hp) he hr
  | dma _ hr hl hd =>
    have hphase := (settled_streaming_phase hs hr).1 hd
    have hreg := hs.registers
    have hcur := hs.cursors
    rw [hphase] at hreg
    rw [phaseCursors, hphase] at hcur
    exact
      { settled_sound hs with
        registers := hreg
        error := .inl he
        dmaCursor := ⟨Nat.zero_le _, hl⟩
        cursors := hcur
        stream := ⟨fun _ => hd, fun _ => .inr rfl⟩
        count := hcount _ }
  | pio _ hr hl hd =>
    have hphase := (settled_streaming_phase hs hr).2 hd
    have hst : putBsy false (putDrq true s.status) = 0x0008 ∨ putBsy false (putDrq true s.status) = 0x0048 := by
      rw [request_settled_status hs hphase]
      exact settled_pio_status hs (.inr (.inr hphase))
    exact
      { settled_sound hs with
        registers := ⟨intreason_of_fields hi false true, hst⟩
        error := .inl he
        pioCursor := ⟨Nat.zero_le _, hl, rfl⟩
        cursors := trivial
        stream := ⟨nofun, fun _ => .inl ⟨rfl, hd⟩⟩
        count := hcount _ }

/-! ### Every instruction -/

/-- A DATA read within its bound finds the PIO reply phase: in the DMA phase the packet's cursor stands at its end. -/
theorem settled_read_phase {s : State} (h : s.Settled) (hb : s.pioHead + 2 ≤ s.pioSize)
    (hp : s.phase = .writeSpiData ∨ s.phase = .writeDmaData) : s.phase = .writeSpiData := by
  refine hp.resolve_right fun hp => ?_
  have hcur := h.cursors
  rw [phaseCursors, hp] at hcur
  omega

/-- An advance of the PIO cursor within the armed bytes of a reply. -/
theorem settled_advance_pio {s : State} (h : s.Settled) (hp : s.phase = .writeSpiData)
    (hb : s.pioHead + 2 ≤ s.pioSize) : State.Settled { s with pioHead := s.pioHead + 2 } :=
  { h with
    pioCursor := settled_pioCursor_advance h hb
    cursors := by rw [phaseCursors, hp]; trivial }

/-- What a request takes stays within the armed bytes. -/
theorem dmaHead_add_dmaTake_le {s : State} (n : Nat) (h : s.dmaHead ≤ s.dmaSize) :
    s.dmaHead + dmaTake n s ≤ s.dmaSize := by
  have h3 : dmaTake n s ≤ s.dmaSize - s.dmaHead := Nat.min_le_right _ _
  omega

/-- An advance of the DMA cursor by what a request takes. -/
theorem settled_advance_dma {s : State} (n : Nat) (h : s.Settled) :
    State.Settled { s with dmaHead := s.dmaHead + dmaTake n s } :=
  { h with
    dmaCursor := ⟨dmaHead_add_dmaTake_le n h.dmaCursor.1, h.dmaCursor.2⟩ }

/-- A word stored below the threshold of its phase. -/
theorem settled_storeWord (v : Reg) {s : State} (h : s.Settled)
    (hp : s.phase = .readAtaData ∨ s.phase = .readSpiData) (hb : s.pioHead + 2 ≤ s.pioSize)
    (h12 : ¬ (s.phase = .readAtaData ∧ s.pioHead + 2 = 12)) : (storeWord v s).Settled :=
  { h with
    pioCursor := settled_pioCursor_advance h hb
    cursors := by
      have hcur := h.cursors
      rcases hp with hp | hp <;> rw [phaseCursors, hp] at hcur <;> rw [phaseCursors, storeWord_phase, hp]
      · have hne : s.pioHead + 2 ≠ 12 := fun e => h12 ⟨hp, e⟩
        obtain ⟨hsize, hhead⟩ := hcur
        have : s.pioHead + 2 < 12 := by omega
        exact ⟨hsize, this⟩
      · exact hcur }

/-- The last word of a payload completes SET_MODE. -/
theorem settled_payload {s : State} (h : s.Settled) (hp : s.phase = .readSpiData)
    (hb : s.pioHead + 2 = s.pioSize) (v : Reg) (hw : Vector Byte 32) :
    (spiEnd { storeWord v s with hwInfo := hw }).Settled := by
  have hst : s.status &&& 0xFF37#16 = 0 := by
    rcases settled_pio_status h (.inr (.inl hp)) with e | e <;> rw [e] <;> rfl
  have herror : s.error = 0x0000 := settled_error h (by rw [hp]; nofun)
  have hcount : s.cdr.remaining = 0 := settled_remaining h (by rw [hp]; nofun) (by rw [hp]; nofun)
  have hpio := settled_pioCursor_advance h hb.le
  exact spiEnd_settled { settled_sound h with pioCursor := hpio } (phaseRegisters_intreason h.registers) hst
    herror hcount

/-- A bind keeps the phase and all its clauses (rules R99, R138). -/
theorem settled_bind {s : State} (h : s.Settled) {d : Option Disc}
    (hd : ∀ e, d = some e → e.meetsObligation) : (softReset { s with disc := d }).Settled :=
  { h with
    registers := phaseRegisters_softReset h.registers
    error := .inl rfl
    sectnum := sectnumOk_softReset _
    disc := hd }

/-- An answered state is settled when the state before the answer is. -/
theorem settled_answer {r : Response} {s : State} (hf : (answer r s).faulted = none)
    (h : s.faulted = none → s.Settled) : (answer r s).Settled := by
  obtain ⟨r', e⟩ := answer_eq_update r s
  rw [e] at hf ⊢
  exact { h hf with }

/-- Every host operation and ATA command that does not fault leaves a settled block. (A packet command by itself
need not: it is performed where the twelfth byte has been received.) -/
theorem effectCase_settled {i : Instr} {s t : State} (h : EffectCase i s t) (hs : s.Settled)
    (hi : i.isSpi = false) (hd : ∀ d, i = .bind (some d) → d.meetsObligation) (hf : t.faulted = none) :
    t.Settled := by
  have hpre := settled_ataPreamble_status hs
  have hint := phaseRegisters_intreason hs.registers
  cases h with
  | plain | status | features | byteCount => exact { hs with }
  | ataFault | fault | readFault | writeFault => cases hf
  | bind d hb => exact settled_bind hs fun e he => hd e (hb.trans (congrArg _ he))
  | nop =>
    have hst : putCheck true (ataPreamble s).status = 0x0081 := by rw [hpre]; rfl
    have herr : putAbrt true (ataPreamble s).error = 0x0004 := by rw [ataPreamble_error]; rfl
    exact ataEnd_settled { settled_ataPreamble_sound hs with } hint (.inr (.inr ⟨hst, herr⟩)) rfl
  | softReset =>
    have hst : (softReset (ataPreamble s)).status = 0x0040 := by rw [softReset_status, hpre]; rfl
    exact ataEnd_settled { settled_ataPreamble_sound hs with sectnum := sectnumOk_softReset _ } hint
      (.inr (.inl ⟨hst, rfl⟩)) rfl
  | setFeatures => exact ataEnd_settled (settled_ataPreamble_sound hs) hint (.inl ⟨hpre, rfl⟩) rfl
  | packet => exact ataPacketCmd_settled hs
  | store v _ hp hb h12 => exact settled_storeWord v hs hp hb h12
  | payload v _ hp hb => exact settled_payload hs hp hb v _
  | packetWord v _ hp hh _ ht => exact spiCase_settled ht (storeWord_packetReceived v hs hp hh) hf
  | spi h => exact absurd (h.symm.trans hi) (by decide)
  | readData _ hb hp r ht =>
    have hp' := settled_read_phase hs hb hp
    exact settled_answer hf fun hf => drainCase_settled ht (settled_advance_pio hs hp' hb) (.inl hp') hf
  | dma n _ hp _ r ht =>
    exact settled_answer hf fun hf => drainCase_settled ht (settled_advance_dma n hs) (.inr hp) hf

/-- A host operation is none of the packet level (rule R62). -/
theorem decodeHost_isSpi {op : HostOp} {i : Instr} (h : decodeHost op = .ok i) : i.isSpi = false := by
  unfold decodeHost at h
  split at h
  case h_21 => split at h <;> cases h
  all_goals cases h; rfl

/-- The invariant does not speak of the operations to come nor of the value returned. -/
theorem inv_congr {s : State} (h : s.Inv) (ops : List HostOp) (r : Response) :
    State.Inv { s with pending := ops, response := r } :=
  ⟨h.1, fun hf => { h.2 hf with }⟩

/-- Everything a step that answers a next state can do, over the invariant: nothing, or the case of the host
operation taken. -/
theorem step_inv_cases {s t : State} (hs : s.Inv) (h : step s = .next t) :
    t = s ∨ ∃ op rest i, s.pending = op :: rest ∧ decodeHost op = .ok i ∧ s.faulted = none ∧
      (∀ d, i = .bind (some d) → d.meetsObligation) ∧
      State.Inv { s with pending := rest, response := .none } ∧
      EffectCase i { s with pending := rest, response := .none } t := by
  rcases step_cases s with ⟨-, e⟩ | ⟨op, rest, why, -, -, e⟩ | ⟨op, rest, i, hpend, hdec, e⟩
  all_goals rw [e] at h
  · cases h; exact .inl rfl
  · cases h
  · obtain ⟨hf, hd, hcase⟩ := exec_cases h
    exact .inr ⟨op, rest, i, hpend, hdec, hf, hd, inv_congr hs rest .none, hcase⟩

/-- The invariant's step. -/
theorem step_inv {s t : State} (hs : s.Inv) (h : step s = .next t) : t.Inv := by
  rcases step_inv_cases hs h with rfl | ⟨op, rest, i, -, hdec, hf, hd, ⟨hcanon, hsettled⟩, hcase⟩
  · exact hs
  · exact ⟨effectCase_canonical hcase hcanon,
      effectCase_settled hcase (hsettled hf) (decodeHost_isSpi hdec) hd⟩

/-- Settles O56: the buffers by their frame, the rest by the cases of the operation performed. -/
theorem everyStepKeepsTheInvariant : Obligations.EveryStepKeepsTheInvariant := fun _ _ => step_inv

/-! ### The STATUS values -/

/-- The table of rule R16, in the phases. -/
theorem settled_status_table {t : State} (h : t.Settled) :
    (t.status = 0x0040 ∧ (t.phase = .readAtaCmd ∨ t.phase = .writeDmaData)) ∨
    (t.status = 0x0041 ∧ t.phase = .readAtaCmd) ∨
    (t.status = 0x0008 ∧ (t.phase = .readAtaData ∨ t.phase = .readSpiData ∨ t.phase = .writeSpiData)) ∨
    (t.status = 0x0080 ∧ t.phase = .writeDmaData) ∨
    (t.status = 0x0048 ∧ (t.phase = .readAtaData ∨ t.phase = .readSpiData ∨ t.phase = .writeSpiData)) := by
  have hreg := h.registers
  cases e : t.phase <;> rw [e] at hreg <;> obtain ⟨-, hst | hst⟩ := hreg <;> simp [hst]

/-- The values a bind leaves: 0x48, and 0x40 in the DMA phase (90_conflicts.md C6). -/
def BoundStatus (t : State) : Prop := t.status = 0x0048 ∨ (t.status = 0x0040 ∧ t.phase = .writeDmaData)

/-- The idle phase shows neither. -/
theorem settled_idle_not_bound {t : State} (h : t.Settled) (hp : t.phase = .readAtaCmd) :
    ¬ BoundStatus t := by
  have hreg := h.registers
  rw [hp] at hreg
  rintro (e | ⟨-, e⟩)
  · rw [e] at hreg
    exact absurd hreg.2 (by decide)
  · exact absurd (hp.symm.trans e) nofun

/-- A packet command leaves the idle phase, or a STATUS that no bind has written (rules R150, R239). -/
theorem spiCase_status {s t : State} (h : SpiCase s t) (hs : PacketReceived s) (hf : t.faulted = none) :
    t.phase = .readAtaCmd ∨ t.status = 0x0008 ∨ t.status = 0x0080 := by
  have hst := packetReceived_preamble_status hs
  have request : putBsy false (putDrq true (spiPreamble s).status) = 0x0008 := by rw [hst]; rfl
  cases h with
  | fault | readFault => cases hf
  | finish => exact .inl rfl
  | reply | payload | readPio => exact .inr (.inl request)
  | readDma => exact .inr (.inr hst)

/-- A drain completes, or leaves STATUS and the phase as they are. -/
theorem drainCase_status {s t : State} (h : DrainCase s t) (hs : s.Settled) (hf : t.faulted = none) :
    t.phase = .readAtaCmd ∨ (s.status = t.status ∧ s.phase = t.phase) := by
  cases h with
  | stay => exact .inr ⟨rfl, rfl⟩
  | fault => cases hf
  | finish => exact .inl rfl
  | dma _ hr _ hd => exact .inr ⟨rfl, (settled_streaming_phase hs hr).1 hd⟩
  | pio _ hr _ hd =>
    have hp := (settled_streaming_phase hs hr).2 hd
    exact .inr ⟨(request_settled_status hs hp).symm, hp⟩

/-- The same of a read that answers a value. -/
theorem answer_drainCase_status {r : Response} {s t : State} (h : DrainCase s t) (hs : s.Settled)
    (hf : (answer r t).faulted = none) :
    (answer r t).phase = .readAtaCmd ∨
      (s.status = (answer r t).status ∧ s.phase = (answer r t).phase) := by
  obtain ⟨r', e⟩ := answer_eq_update r t
  rw [e] at hf ⊢
  exact (drainCase_status h hs hf :)

/-- The values an arming leaves are none of a bind's. -/
theorem not_boundStatus {t : State} (h : t.status = 0x0008 ∨ t.status = 0x0080) : ¬ BoundStatus t := by
  unfold BoundStatus
  rcases h with e | e <;> rw [e] <;> simp

/-- An operation that ends on a value a bind leaves is a bind, or found value and phase as they are. -/
theorem effectCase_boundStatus {i : Instr} {s t : State} (h : EffectCase i s t) (hs : s.Settled)
    (hi : i.isSpi = false) (hf : t.faulted = none) (hset : t.Settled) (hbound : BoundStatus t) :
    (s.status = t.status ∧ s.phase = t.phase) ∨ ∃ d, i = .bind d := by
  have idle : t.phase = .readAtaCmd → (s.status = t.status ∧ s.phase = t.phase) ∨ ∃ d, i = .bind d :=
    fun hp => absurd hbound (settled_idle_not_bound hset hp)
  cases h with
  | plain | status | features | byteCount | store => exact .inl ⟨rfl, rfl⟩
  | ataFault | fault | readFault | writeFault => cases hf
  | bind d hi => exact .inr ⟨d, hi⟩
  | nop | softReset | setFeatures | payload => exact idle rfl
  | packet =>
    have hst : (ataPacketCmd s).status = 0x0008 := by
      rw [ataPacketCmd_eq, settled_ataPreamble_status hs]; rfl
    exact absurd hbound (not_boundStatus (.inl hst))
  | packetWord v _ hp hh _ ht =>
    rcases spiCase_status ht (storeWord_packetReceived v hs hp hh) hf with h | h
    · exact idle h
    · exact absurd hbound (not_boundStatus h)
  | spi h => exact absurd (h.symm.trans hi) (by decide)
  | readData _ hb hp r ht =>
    have hs' := settled_advance_pio hs (settled_read_phase hs hb hp) hb
    exact (answer_drainCase_status ht hs' hf).elim idle .inl
  | dma n _ hp _ r ht => exact (answer_drainCase_status ht (settled_advance_dma n hs) hf).elim idle .inl

theorem perform_cons {i : Instr} {s t : State} (h : exec i s = .next t) (rest : List Instr) :
    perform (i :: rest) s = perform rest t := by
  rw [perform, h]

/-- CD_READ with FEATURES.DMA set enters the DMA phase, in the packet phase with a disc that keeps its obligation
(rules R166, R181). -/
theorem effect_dmaCdRead {s : State} (msf : Bool) (fmt : BitVec 3) (mask : BitVec 4) (a b c : Byte)
    (count : BitVec 24) (hp : s.phase = .readAtaData) (hdma : s.featuresDma = true)
    (hd : ∀ e, s.disc = some e → e.meetsObligation) :
    effect (.spiCdRead msf fmt mask a b c count) s =
      refillDma dmaSectorBudget (withCdr ⟨true, fmt, mask, getFad a b c msf, count.toNat⟩ s) := by
  have e : effect (.spiCdRead msf fmt mask a b c count) s =
      cdRead (withCdr ⟨s.featuresDma, fmt, mask, getFad a b c msf, count.toNat⟩ s) := by
    simp only [effect, spiCdRead, spiArm_eq _ hp]
    rfl
  rw [e, hdma]
  rcases cdRead_cases (withCdr ⟨true, fmt, mask, getFad a b c msf, count.toNat⟩ s) with
    ⟨-, -, e⟩ | ⟨-, h, -⟩ | ⟨hl, -⟩
  · exact e
  · cases h
  · exact absurd hl (Nat.not_lt.mpr (refillBytes_length hd))

/-- A DMA CD_READ after a bind in the packet phase shows BSY alone (rules R166, R181, R239). -/
theorem bind_then_dmaCdRead {s : State} {d : Option Disc} (msf : Bool) (fmt : BitVec 3) (mask : BitVec 4)
    (a b c : Byte) (count : BitVec 24) (hs : s.Settled) (hf : s.faulted = none)
    (hp : s.phase = .readAtaData) (hdma : s.featuresDma = true)
    (hd : ∀ e, d = some e → e.meetsObligation) :
    ∃ t, SafeRun [.bind d, .spiCdRead msf fmt mask a b c count] s t ∧
      t.phase = .writeDmaData ∧ t.status = 0x0080 := by
  have hbind := exec_ready (i := .bind d) hf fun e he => hd e (Instr.bind.inj he)
  have hread := exec_ready (i := .spiCdRead msf fmt mask a b c count)
    (s := effect (.bind d) { s with response := .none }) hf (by rintro _ ⟨⟩)
  rw [effect_dmaCdRead msf fmt mask a b c count (by exact hp) (by exact hdma) (by exact hd)] at hread
  have hst : putBsy true (putDrq false (putDrdy false (putBsy false (putDrdy true s.status)))) = 0x0080 := by
    rw [busy_bits]
    rcases settled_pio_status hs (.inl hp) with e | e <;> rw [e] <;> rfl
  exact ⟨_, ⟨(perform_cons hbind _).trans (perform_cons hread _), hf⟩, rfl, hst⟩

/-- Settles O60: the table from the invariant, the bound values from the cases of the operation, and the run. -/
theorem statusShowsOnlyTheTabledValues : Obligations.StatusShowsOnlyTheTabledValues := by
  refine ⟨fun s t hs h hf => settled_status_table ((step_inv hs h).2 hf), ?_, ?_⟩
  · intro s t hs h hf hb
    have ht := (step_inv hs h).2 hf
    rcases step_inv_cases hs h with rfl | ⟨op, rest, i, hpend, hdec, hfs, -, ⟨-, hsettled⟩, hcase⟩
    · exact .inl ⟨rfl, rfl⟩
    · refine (effectCase_boundStatus hcase (hsettled hfs) (decodeHost_isSpi hdec) hf ht hb).imp_right ?_
      rintro ⟨d, rfl⟩
      exact ⟨op, rest, d, hpend, hdec⟩
  · intro s d msf fmt mask a b c count hs hf hp hdma hd
    exact bind_then_dmaCdRead msf fmt mask a b c count (hs.2 hf) hf hp hdma hd

end Sys2Proof.Machine.Proofs
end

section
/-! SUPPORT. Stale buffer bytes are never observed (spec 10_state.md rules R23, R24, R34): two states that differ in
their staging buffers alone, the live bytes agreeing, do the same. A handler that reads no PIO byte hides every one of
them (`Hides`); only RD DATA, the sixth packet word, SET_MODE's last word and DMARD read a buffer, and those read live
bytes. -/

namespace Sys2Proof.Machine.Proofs

open Sys2Proof.Machine.Laws Sys2Proof.Claims

/-! ### Buffers that agree up to an index -/

/-- The two buffers read the same below `n`. -/
def SameBelow (n : Nat) (m m' : Memory) : Prop := ∀ i, i < n → m'.read i = m.read i

theorem sameBelow_zero (m m' : Memory) : SameBelow 0 m m' := fun _ h => absurd h (Nat.not_lt_zero _)

theorem sameBelow_mono {n k : Nat} {m m' : Memory} (h : SameBelow n m m') (hk : k ≤ n) : SameBelow k m m' :=
  fun i hi => h i (Nat.lt_of_lt_of_le hi hk)

/-- A block copied into both at their common end extends what they share. -/
theorem sameBelow_writeRange {a : Nat} {m m' : Memory} (bytes : List Byte) (h : SameBelow a m m')
    (hm : m.wf = true) (hm' : m'.wf = true) :
    SameBelow (a + bytes.length) (m.writeRange a bytes) (m'.writeRange a bytes) := by
  intro i hi
  rw [read_writeRange a i bytes hm, read_writeRange a i bytes hm']
  by_cases hr : a ≤ i ∧ i < a + bytes.length
  · rw [if_pos hr, if_pos hr]
  · rw [if_neg hr, if_neg hr]
    exact h i (by omega)

/-- The same for a whole buffer filled from its start. -/
theorem sameBelow_fill {m m' : Memory} (bytes : List Byte) (hm : m.wf = true) (hm' : m'.wf = true) :
    SameBelow bytes.length (m.writeRange 0 bytes) (m'.writeRange 0 bytes) := by
  have h := sameBelow_writeRange bytes (sameBelow_zero m m') hm hm'
  rwa [Nat.zero_add] at h

theorem readRange_sameBelow {n a k : Nat} {m m' : Memory} (h : SameBelow n m m') (hk : a + k ≤ n) :
    m'.readRange a k = m.readRange a k :=
  readRange_congr fun j hj => h (a + j) (by omega)

/-! ### The live bytes of a phase -/

theorem liveBytes_idle {s : State} (h : s.phase = .readAtaCmd) : liveBytes s = 0 := by
  unfold liveBytes; rw [h]; cases s.faulted <;> rfl

theorem liveBytes_dma {s : State} (h : s.phase = .writeDmaData) : liveBytes s = 0 := by
  unfold liveBytes; rw [h]; cases s.faulted <;> rfl

theorem liveBytes_le_pioSize {s : State} (h : s.phase = .writeSpiData) : liveBytes s ≤ s.pioSize := by
  unfold liveBytes; rw [h]; cases s.faulted <;> simp

theorem liveBytes_le_pioHead {s : State} (h : s.phase = .readAtaData ∨ s.phase = .readSpiData) :
    liveBytes s ≤ s.pioHead := by
  unfold liveBytes
  rcases h with h | h <;> rw [h] <;> cases s.faulted <;> simp

theorem liveBytes_receiving {s : State} (hf : s.faulted = none)
    (h : s.phase = .readAtaData ∨ s.phase = .readSpiData) : liveBytes s = s.pioHead := by
  unfold liveBytes
  rcases h with h | h <;> rw [h, hf]

theorem liveBytes_sending {s : State} (hf : s.faulted = none) (h : s.phase = .writeSpiData) :
    liveBytes s = s.pioSize := by
  unfold liveBytes; rw [h, hf]

/-! ### The twin of a state -/

/-- `s` with other staging buffers. -/
def withBuffers (p d : Memory) (s : State) : State := { s with pioBuf := p, dmaBuf := d }

@[simp] theorem withBuffers_pioBuf (p d : Memory) (s : State) : (withBuffers p d s).pioBuf = p := rfl
@[simp] theorem withBuffers_pioHead (p d : Memory) (s : State) :
    (withBuffers p d s).pioHead = s.pioHead := rfl
@[simp] theorem withBuffers_pioSize (p d : Memory) (s : State) :
    (withBuffers p d s).pioSize = s.pioSize := rfl
@[simp] theorem withBuffers_pioOffset (p d : Memory) (s : State) :
    (withBuffers p d s).pioOffset = s.pioOffset := rfl
@[simp] theorem withBuffers_dmaBuf (p d : Memory) (s : State) : (withBuffers p d s).dmaBuf = d := rfl
@[simp] theorem withBuffers_dmaHead (p d : Memory) (s : State) :
    (withBuffers p d s).dmaHead = s.dmaHead := rfl
@[simp] theorem withBuffers_disc (p d : Memory) (s : State) : (withBuffers p d s).disc = s.disc := rfl
@[simp] theorem withBuffers_hwInfo (p d : Memory) (s : State) : (withBuffers p d s).hwInfo = s.hwInfo := rfl
@[simp] theorem withBuffers_driveStatus (p d : Memory) (s : State) :
    (withBuffers p d s).driveStatus = s.driveStatus := rfl

/-- States that differ in their buffers, and in those beyond the live bytes only. -/
theorem sameButStale_withBuffers {p d : Memory} {s t : State} (e : t = withBuffers p d s)
    (hp : SameBelow (liveBytes s) s.pioBuf p) (hd : SameBelow s.dmaSize s.dmaBuf d) : SameButStale s t := by
  subst e
  exact ⟨rfl, hp, hd⟩

/-- The value returned is no part of the difference. -/
theorem sameButStale_answer (r : Response) {s t : State} (h : SameButStale s t) :
    SameButStale (answer r s) (answer r t) := by
  obtain ⟨e, hp, hd⟩ := h
  have hf : t.faulted = s.faulted := by rw [e]
  cases hs : s.faulted with
  | some c => rw [answer_faulted r hs, answer_faulted r (hf.trans hs)]; exact ⟨e, hp, hd⟩
  | none =>
    rw [answer_ready r hs, answer_ready r (hf.trans hs)]
    exact ⟨by rw [e], hp, hd⟩

/-- A choice made alike. -/
theorem sameButStale_ite {c c' : Prop} [Decidable c] [Decidable c'] {s s' t t' : State} (hc : c' ↔ c)
    (hs : c → SameButStale s s') (ht : ¬ c → SameButStale t t') :
    SameButStale (if c then s else t) (if c' then s' else t') := by
  by_cases h : c
  · rw [if_pos h, if_pos (hc.mpr h)]; exact hs h
  · rw [if_neg h, if_neg (mt hc.mp h)]; exact ht h

/-! ### Handlers that read no PIO byte -/

/-- Whatever the PIO buffer holds, and the DMA buffer beyond its armed bytes, `f` does the same. -/
def Hides (f : State → State) : Prop :=
  ∀ (s : State) (p d : Memory), s.Canonical → (withBuffers p d s).Canonical →
    SameBelow s.dmaSize s.dmaBuf d → SameButStale (f s) (f (withBuffers p d s))

/-- A register update that leaves the buffers alone and no live PIO byte. -/
theorem hides_update {f : State → State} (hf : ∀ p d s, f (withBuffers p d s) = withBuffers p d (f s))
    (hlive : ∀ s, liveBytes (f s) = 0) (hsize : ∀ s, (f s).dmaSize = s.dmaSize)
    (hbuf : ∀ s, (f s).dmaBuf = s.dmaBuf) : Hides f := by
  intro s p d _ _ hd
  refine sameButStale_withBuffers (hf p d s) ?_ ?_
  · rw [hlive]; exact sameBelow_zero _ _
  · rw [hsize, hbuf]; exact hd

theorem hides_raiseFault (c : Cause) : Hides (raiseFault c) :=
  hides_update (fun _ _ _ => rfl) (fun _ => rfl) (fun _ => rfl) (fun _ => rfl)

theorem hides_ataEnd : Hides ataEnd :=
  hides_update (fun _ _ _ => rfl) (fun _ => liveBytes_idle rfl) (fun _ => rfl) (fun _ => rfl)

theorem hides_spiEnd : Hides spiEnd :=
  hides_update (fun _ _ _ => rfl) (fun _ => liveBytes_idle rfl) (fun _ => rfl) (fun _ => rfl)

theorem hides_driveStatusEnd (v : BitVec 4) : Hides (driveStatusEnd v) :=
  hides_update (fun _ _ _ => rfl) (fun _ => liveBytes_idle rfl) (fun _ => rfl) (fun _ => rfl)

theorem hides_spiRead (offset size : Nat) : Hides (spiRead offset size) :=
  hides_update (fun _ _ _ => rfl) (fun _ => Nat.le_zero.mp (liveBytes_le_pioHead (.inr rfl)))
    (fun _ => rfl) (fun _ => rfl)

/-- A choice made without looking at the buffers. -/
theorem hides_ite {c : State → Prop} [DecidablePred c] {f g : State → State}
    (hc : ∀ p d s, c (withBuffers p d s) ↔ c s) (hf : Hides f) (hg : Hides g) :
    Hides fun s => if c s then f s else g s :=
  fun s p d hs hs' hd =>
    sameButStale_ite (hc p d s) (fun _ => hf s p d hs hs' hd) (fun _ => hg s p d hs hs' hd)

/-- An arming overwrites every byte it makes live. -/
theorem hides_armPioOut (payload : List Byte) (size : Nat) (h : payload.length = size) :
    Hides (armPioOut payload size) := by
  intro s p d hs hs' hd
  subst h
  refine sameButStale_withBuffers (p := p.writeRange 0 (payload.take payload.length)) (d := d) rfl ?_ hd
  refine sameBelow_mono (sameBelow_fill _ hs.1 hs'.1) ?_
  rw [List.take_length]
  exact liveBytes_le_pioSize rfl

theorem hides_replySlice (o : List Byte) (offset size : Nat) : Hides (replySlice o offset size) := by
  intro s p d hs hs' hd
  rcases replySlice_cases o offset size s with ⟨h, h', e⟩ | ⟨h, e⟩
  · rw [e, replySlice_fits _ h h']
    exact hides_armPioOut _ _ (slice_length h) s p d hs hs' hd
  · have e' : replySlice o offset size (withBuffers p d s) = raiseFault .oversize (withBuffers p d s) := by
      rcases replySlice_cases o offset size (withBuffers p d s) with ⟨h1, h2, -⟩ | ⟨-, e'⟩
      · omega
      · exact e'
    rw [e, e']
    exact hides_raiseFault _ s p d hs hs' hd

/-- A refill's bytes come from the disc alone and overwrite every byte it arms. -/
theorem hides_refillDma (budget : Nat) : Hides (refillDma budget) := by
  intro s p d hs hs' _
  refine sameButStale_withBuffers (p := p) (d := d.writeRange 0 (refillBytes budget s)) rfl ?_ ?_
  · rw [liveBytes_dma rfl]; exact sameBelow_zero _ _
  · exact sameBelow_fill _ hs.2 hs'.2

theorem hides_refillPio (budget : Nat) : Hides (refillPio budget) := by
  intro s p d hs hs' hd
  refine sameButStale_withBuffers (p := p.writeRange 0 (refillBytes budget s)) (d := d) rfl ?_ hd
  exact sameBelow_mono (sameBelow_fill _ hs.1 hs'.1) (liveBytes_le_pioSize rfl)

theorem hides_cdRead : Hides cdRead :=
  hides_ite (c := fun s => s.cdr.dma = true) (fun _ _ _ => Iff.rfl)
    (hides_ite (fun _ _ _ => Iff.rfl) (hides_raiseFault _) (hides_refillDma _))
    (hides_ite (fun _ _ _ => Iff.rfl) (hides_raiseFault _) (hides_refillPio _))

theorem hides_drained : Hides drained := hides_ite (fun _ _ _ => Iff.rfl) hides_cdRead hides_spiEnd

/-! ### Commands -/

/-- An event is legal by the phase alone. -/
theorem sameButStale_post {e : Event} {f : State → State} {s : State} {p d : Memory} (hs : s.Canonical)
    (hs' : (withBuffers p d s).Canonical) (hd : SameBelow s.dmaSize s.dmaBuf d)
    (h : handles s.phase e = true → SameButStale (f s) (f (withBuffers p d s))) :
    SameButStale (post e f s) (post e f (withBuffers p d s)) :=
  sameButStale_ite Iff.rfl h fun _ => hides_raiseFault _ s p d hs hs' hd

theorem hides_post (e : Event) {f : State → State} (h : Hides f) : Hides (post e f) :=
  fun s p d hs hs' hd => sameButStale_post hs hs' hd fun _ => h s p d hs hs' hd

theorem hides_ataArm {arm : State → State} (h : Hides arm) : Hides (ataArm arm) :=
  hides_post .ataCmd fun s p d => h (ataPreamble s) p d

theorem hides_spiArm {arm : State → State} (h : Hides arm) : Hides (spiArm arm) :=
  hides_post .spiCmd fun s p d => h (spiPreamble s) p d

theorem hides_ataPacketCmd : Hides ataPacketCmd := by
  unfold ataPacketCmd
  refine hides_ataArm (hides_update (fun _ _ _ => rfl) (fun s => ?_) (fun _ => rfl) (fun _ => rfl))
  exact Nat.le_zero.mp (liveBytes_le_pioHead (.inl rfl))

/-- No ATA command reads a buffer byte. -/
theorem hides_ataCmd (c : Byte) : Hides (ataCmd c) := by
  unfold ataCmd decodeAta
  split
  · exact hides_ataArm fun s p d => hides_ataEnd { s with
      error := putAbrt true s.error, status := putCheck true s.status } p d
  · exact hides_ataArm fun s p d => hides_ataEnd (softReset s) p d
  · exact hides_ataArm (hides_raiseFault _)
  · exact hides_ataPacketCmd
  · exact hides_ataArm (hides_raiseFault _)
  · exact hides_ataArm hides_ataEnd
  · exact hides_ataArm (hides_raiseFault _)

/-- A packet command reads no buffer byte beyond its packet, which is latched. -/
theorem hides_spiCase (i : Instr) : Hides (spiCase i) := by
  cases i
  case spiTestUnit => exact hides_spiArm hides_spiEnd
  case spiReqStat offset size =>
    exact hides_spiArm fun s => hides_replySlice (statusReply s) offset.toNat size.toNat s
  case spiReqMode offset size =>
    exact hides_spiArm fun s => hides_replySlice s.hwInfo.toList offset.toNat size.toNat s
  case spiSetMode offset size =>
    exact hides_spiArm (hides_ite (c := fun _ => 32 < offset.toNat + size.toNat) (fun _ _ _ => Iff.rfl)
      (hides_raiseFault _) (hides_spiRead _ _))
  case spiReqError size => exact hides_spiArm (hides_replySlice _ _ _)
  case spiGetToc area size =>
    unfold spiCase spiGetToc
    refine hides_spiArm fun s => ?_
    cases hd : s.disc with
    | none => simpa only [withBuffers_disc, hd] using hides_raiseFault .noDisc s
    | some d =>
      cases ht : tocReply d area with
      | none => simpa only [withBuffers_disc, hd, ht] using hides_raiseFault .bounds s
      | some o => simpa only [withBuffers_disc, hd, ht] using hides_replySlice o 0 size.toNat s
  case spiReqSes session size =>
    unfold spiCase spiReqSes
    refine hides_spiArm fun s => ?_
    cases hd : s.disc with
    | none => simpa only [withBuffers_disc, hd] using hides_raiseFault .noDisc s
    | some d =>
      cases ht : sessionQuery d session.toNat with
      | none => simpa only [withBuffers_disc, hd, ht] using hides_raiseFault .bounds s
      | some q =>
        simpa only [withBuffers_disc, withBuffers_driveStatus, hd, ht] using
          hides_replySlice (sessionReply s.driveStatus q.1 q.2) 0 size.toNat s
  case spiCdPlay => exact hides_spiArm (hides_driveStatusEnd _)
  case spiCdSeek param =>
    unfold spiCase spiCdSeek
    refine hides_spiArm ?_
    cases seekStatus param with
    | none => exact hides_raiseFault _
    | some v => exact hides_driveStatusEnd v
  case spiCdScan => exact hides_spiArm (hides_driveStatusEnd _)
  case spiCdRead msf fmt mask a b c count =>
    exact hides_spiArm fun s => hides_cdRead { s with
      cdr := ⟨s.featuresDma, fmt, mask, getFad a b c msf, count.toNat⟩ }
  case spiGetScd format size => exact hides_spiArm (hides_replySlice _ _ _)
  case spiChkSecu => exact hides_spiArm hides_spiEnd
  case spiReqSecu =>
    exact hides_spiArm (hides_ite (c := fun _ => 65536 < 126) (fun _ _ _ => Iff.rfl) (hides_raiseFault _)
      (hides_armPioOut _ _ (by simp [secuReply])))
  case spiCdOpen | spiCdRead2 | spiUnknown => exact hides_spiArm (hides_raiseFault _)
  all_goals exact hides_raiseFault _

/-! ### Handlers that read live bytes -/

/-- The read handler reads no buffer: a drain refills or completes, and before it nothing changes. -/
theorem pioRead_sameButStale {s : State} {p d : Memory} (hs : s.Canonical)
    (hs' : (withBuffers p d s).Canonical) (hp : SameBelow (liveBytes s) s.pioBuf p)
    (hd : SameBelow s.dmaSize s.dmaBuf d) : SameButStale (pioRead s) (pioRead (withBuffers p d s)) := by
  have hdrain := hides_drained s p d hs hs' hd
  have hstay : SameButStale s (withBuffers p d s) := ⟨rfl, hp, hd⟩
  unfold pioRead
  exact sameButStale_ite Iff.rfl
    (fun _ => sameButStale_ite Iff.rfl (fun _ => hdrain) (fun _ => hstay))
    (fun _ => sameButStale_ite Iff.rfl (fun _ => hdrain) (fun _ => hstay))

/-- The packet's command is decoded from twelve received bytes. -/
theorem spiCmd_sameButStale {s : State} {p d : Memory} (hs : s.Canonical)
    (hs' : (withBuffers p d s).Canonical) (hp : SameBelow 12 s.pioBuf p)
    (hd : SameBelow s.dmaSize s.dmaBuf d) : SameButStale (spiCmd s) (spiCmd (withBuffers p d s)) := by
  have hpacket : packetOf p = packetOf s.pioBuf := by
    simp [packetOf, hp 0, hp 1, hp 2, hp 3, hp 4, hp 5, hp 6, hp 7, hp 8, hp 9, hp 10, hp 11]
  unfold spiCmd
  rw [withBuffers_pioBuf, hpacket]
  exact hides_spiCase _ s p d hs hs' hd

/-- SET_MODE's completion copies received payload bytes. -/
theorem spiData_sameButStale {s : State} {p d : Memory} (hs : s.Canonical)
    (hs' : (withBuffers p d s).Canonical) (hp : SameBelow s.pioSize s.pioBuf p)
    (hd : SameBelow s.dmaSize s.dmaBuf d) : SameButStale (spiData s) (spiData (withBuffers p d s)) := by
  have hpayload : p.readRange 0 s.pioSize = s.pioBuf.readRange 0 s.pioSize :=
    readRange_sameBelow hp (Nat.zero_add _).le
  unfold spiData
  rw [withBuffers_pioBuf, withBuffers_pioSize, withBuffers_pioOffset, withBuffers_hwInfo, hpayload]
  generalize hwInfoWrite s.hwInfo s.pioOffset (s.pioBuf.readRange 0 s.pioSize) = hw
  exact sameButStale_ite Iff.rfl (fun _ => hides_raiseFault _ s p d hs hs' hd)
    fun _ => hides_spiEnd { s with hwInfo := hw } p d hs hs' hd

/-- The write handler reads bytes below the cursor only. -/
theorem pioWrite_sameButStale {s : State} {p d : Memory} (hs : s.Canonical)
    (hs' : (withBuffers p d s).Canonical) (hphase : s.phase = .readAtaData ∨ s.phase = .readSpiData)
    (hp : SameBelow s.pioHead s.pioBuf p) (hd : SameBelow s.dmaSize s.dmaBuf d) :
    SameButStale (pioWrite s) (pioWrite (withBuffers p d s)) := by
  unfold pioWrite
  refine sameButStale_ite Iff.rfl (fun h => ?_) fun _ => sameButStale_ite Iff.rfl (fun h => ?_) fun _ => ?_
  · exact spiCmd_sameButStale hs hs' (h.2 ▸ hp) hd
  · exact sameButStale_post hs hs' hd fun _ => spiData_sameButStale hs hs' (h.2 ▸ hp) hd
  · exact ⟨rfl, sameBelow_mono hp (liveBytes_le_pioHead hphase), hd⟩

/-- PIO_WRITE is legal where bytes are received (rule R112). -/
theorem pioWrite_legal (p : Phase) : handles p .pioWrite = true ↔ p = .readAtaData ∨ p = .readSpiData := by
  cases p <;> simp [handles]

/-- PIO_READ is legal where bytes are sent (rule R112). -/
theorem pioRead_legal (p : Phase) : handles p .pioRead = true ↔ p = .writeSpiData ∨ p = .writeDmaData := by
  cases p <;> simp [handles]

/-- WR DATA extends the received bytes by its own two. -/
theorem wrData_sameButStale (v : Reg) {s : State} {p d : Memory} (hf : s.faulted = none) (hs : s.Canonical)
    (hs' : (withBuffers p d s).Canonical) (hp : SameBelow (liveBytes s) s.pioBuf p)
    (hd : SameBelow s.dmaSize s.dmaBuf d) : SameButStale (wrData v s) (wrData v (withBuffers p d s)) := by
  let p' := p.writeRange s.pioHead [lowByte v, highByte v]
  have hstore : storeWord v (withBuffers p d s) = withBuffers p' d (storeWord v s) := rfl
  have hu := storeWord_canonical v hs
  have hu' : (withBuffers p' d (storeWord v s)).Canonical := storeWord_canonical v hs'
  unfold wrData
  rw [hstore]
  refine sameButStale_ite Iff.rfl (fun _ => hides_raiseFault _ s p d hs hs' hd) fun _ => ?_
  refine sameButStale_post hu hu' hd fun hlegal => ?_
  have hphase := (pioWrite_legal _).mp hlegal
  have hhead : SameBelow s.pioHead s.pioBuf p := liveBytes_receiving hf hphase ▸ hp
  exact pioWrite_sameButStale hu hu' hphase
    (sameBelow_writeRange [lowByte v, highByte v] hhead hs.1 hs'.1) hd

/-- A value returned with an event: the two need to agree where the event is legal. -/
theorem sameButStale_answer_post {e : Event} {f : State → State} {r r' : Response} {s : State} {p d : Memory}
    (hs : s.Canonical) (hs' : (withBuffers p d s).Canonical) (hd : SameBelow s.dmaSize s.dmaBuf d)
    (h : handles s.phase e = true → r' = r ∧ SameButStale (f s) (f (withBuffers p d s))) :
    SameButStale (answer r (post e f s)) (answer r' (post e f (withBuffers p d s))) := by
  cases hl : handles s.phase e with
  | true =>
    obtain ⟨rfl, hf⟩ := h hl
    exact sameButStale_answer r' (sameButStale_post hs hs' hd fun _ => hf)
  | false =>
    rw [post_illegal f hl, post_illegal f (s := withBuffers p d s) hl,
      answer_faulted r (raiseFault_faulted _ _), answer_faulted r' (raiseFault_faulted _ _)]
    exact hides_raiseFault _ s p d hs hs' hd

/-- RD DATA returns armed bytes, and from a settled state in the reply phase only. -/
theorem rdData_sameButStale {s : State} {p d : Memory} (hset : s.Settled) (hf : s.faulted = none)
    (hs : s.Canonical) (hs' : (withBuffers p d s).Canonical) (hp : SameBelow (liveBytes s) s.pioBuf p)
    (hd : SameBelow s.dmaSize s.dmaBuf d) : SameButStale (rdData s) (rdData (withBuffers p d s)) := by
  unfold rdData
  refine sameButStale_ite Iff.rfl (fun _ => hides_raiseFault _ s p d hs hs' hd) fun hbound => ?_
  have hb : s.pioHead + 2 ≤ s.pioSize := Nat.not_lt.mp hbound
  refine sameButStale_answer_post (s := { s with pioHead := s.pioHead + 2 }) hs hs' hd fun hlegal => ?_
  have hphase := settled_read_phase hset hb ((pioRead_legal _).mp hlegal)
  rw [liveBytes_sending hf hphase] at hp
  have hlo : p.read s.pioHead = s.pioBuf.read s.pioHead := hp _ (by omega)
  have hhi : p.read (s.pioHead + 1) = s.pioBuf.read (s.pioHead + 1) := hp _ (by omega)
  rw [withBuffers_pioBuf, withBuffers_pioHead, hlo, hhi]
  exact ⟨rfl, pioRead_sameButStale hs hs' (sameBelow_mono hp (liveBytes_le_pioSize hphase)) hd⟩

/-- DMARD returns armed bytes. -/
theorem dmard_sameButStale (n : Nat) {s : State} {p d : Memory} (hset : s.Settled) (hs : s.Canonical)
    (hs' : (withBuffers p d s).Canonical) (hd : SameBelow s.dmaSize s.dmaBuf d) :
    SameButStale (dmard n s) (dmard n (withBuffers p d s)) := by
  have hfault := hides_raiseFault .dmaState s p d hs hs' hd
  have hbytes : d.readRange s.dmaHead (dmaTake n s) = s.dmaBuf.readRange s.dmaHead (dmaTake n s) :=
    readRange_sameBelow hd (dmaHead_add_dmaTake_le n hset.dmaCursor.1)
  unfold dmard
  refine sameButStale_ite Iff.rfl (fun _ => hfault) fun hphase => sameButStale_ite Iff.rfl (fun _ => hfault)
    fun _ => ?_
  rw [show dmaTake n (withBuffers p d s) = dmaTake n s from rfl, withBuffers_dmaBuf, withBuffers_dmaHead, hbytes]
  refine sameButStale_answer _ (sameButStale_post (s := { s with dmaHead := s.dmaHead + dmaTake n s }) hs hs' hd
    fun _ => pioRead_sameButStale hs hs' ?_ hd)
  exact sameBelow_mono (sameBelow_zero _ _) (liveBytes_dma (Decidable.not_not.mp hphase)).le

/-- Every host operation and ATA command, from a settled state. -/
theorem effect_sameButStale {i : Instr} {s : State} {p d : Memory} (hi : i.isSpi = false) (hset : s.Settled)
    (hf : s.faulted = none) (hs : s.Canonical) (hs' : (withBuffers p d s).Canonical)
    (hp : SameBelow (liveBytes s) s.pioBuf p) (hd : SameBelow s.dmaSize s.dmaBuf d) :
    SameButStale (effect i s) (effect i (withBuffers p d s)) := by
  have hstay : SameButStale s (withBuffers p d s) := ⟨rfl, hp, hd⟩
  cases i
  case rdData => exact rdData_sameButStale hset hf hs hs' hp hd
  case wrData v => exact wrData_sameButStale v hf hs hs' hp hd
  case dmard n => exact dmard_sameButStale n hset hs hs' hd
  case wrCommand v => exact hides_ataCmd _ s p d hs hs' hd
  case ataNop => exact hides_ataCmd 0x00 s p d hs hs' hd
  case ataSoftReset => exact hides_ataCmd 0x08 s p d hs hs' hd
  case ataExecDiag => exact hides_ataCmd 0x90 s p d hs hs' hd
  case ataPacketCmd => exact hides_ataCmd 0xA0 s p d hs hs' hd
  case ataIdentifyDev => exact hides_ataCmd 0xA1 s p d hs hs' hd
  case ataSetFeatures => exact hides_ataCmd 0xEF s p d hs hs' hd
  case ataUnknown c => exact hides_ataArm (hides_raiseFault _) s p d hs hs' hd
  case wrSlot3 | wrSlot4 => exact hides_raiseFault _ s p d hs hs' hd
  case wrDevctrl | wrDrvsel => exact hstay
  case wrFeatures | wrBytecountLo | wrBytecountHi | bind => exact ⟨rfl, hp, hd⟩
  case rdStatus => exact sameButStale_answer _ (s := clearIrq s) ⟨rfl, hp, hd⟩
  case rdAltstatus | rdError | rdIntreason | rdSectnum | rdBytecountLo | rdBytecountHi | rdDrvsel =>
    exact sameButStale_answer _ hstay
  all_goals cases hi

theorem step_idle {s : State} (h : s.pending = []) : step s = .next s := by
  simp [step, takeOperation, h]

/-- On an unfaulted block a step answers the effect of the operation taken. -/
theorem step_operation {s : State} {op : HostOp} {rest : List HostOp} {i : Instr}
    (hpend : s.pending = op :: rest) (hdec : decodeHost op = .ok i) (hf : s.faulted = none)
    (hd : ∀ d, i = .bind (some d) → d.meetsObligation) :
    step s = .next (effect i { s with pending := rest, response := .none }) := by
  have e : step s = exec i { s with pending := rest } := by simp [step, takeOperation, hpend, hdec]
  rw [e, exec_ready (by exact hf) hd]

/-- Settles O53: one step of a state and of its twin, by the operation taken. -/
theorem staleBufferBytesAreNeverObserved : Obligations.StaleBufferBytesAreNeverObserved := by
  intro s s' t hinv hcanon' hsame h
  obtain ⟨e, hp, hd⟩ := hsame
  generalize s'.pioBuf = p at e hp
  generalize s'.dmaBuf = d at e hd
  obtain rfl : s' = withBuffers p d s := e
  rcases step_cases s with ⟨hpend, e⟩ | ⟨op, rest, why, -, -, e⟩ | ⟨op, rest, i, hpend, hdec, e⟩
  all_goals rw [e] at h
  · cases h
    exact ⟨_, step_idle hpend, rfl, hp, hd⟩
  · cases h
  · obtain ⟨hf, hbind, rfl⟩ := exec_next h
    refine ⟨_, step_operation (s := withBuffers p d s) hpend hdec hf hbind, ?_⟩
    exact effect_sameButStale (s := { s with pending := rest, response := .none }) (decodeHost_isSpi hdec)
      ((inv_congr hinv rest .none).2 hf) hf hinv.1 hcanon' hp hd

end Sys2Proof.Machine.Proofs
end

section
/-! SUPPORT. The one operation a step takes off the sequence, and what the step answers for it (spec 20_memory.md
rule R47, 30_encoding.md rule R61). -/

namespace Sys2Proof.Machine.Proofs

/-- The first pending operation is taken, and leaves the rest of the sequence pending. -/
theorem takeOperation_cons {s : State} {op : HostOp} {rest : List HostOp} (h : s.pending = op :: rest) :
    takeOperation s = some (op, { s with pending := rest }) := by
  simp only [takeOperation, h]

theorem step_decoded {s : State} {op : HostOp} {rest : List HostOp} {i : Instr} (h : s.pending = op :: rest)
    (hdec : decodeHost op = .ok i) : step s = exec i { s with pending := rest } := by
  simp only [step, takeOperation_cons h, hdec]

theorem step_rejected {s : State} {op : HostOp} {rest : List HostOp} {why : Reject} (h : s.pending = op :: rest)
    (hdec : decodeHost op = .error why) : step s = .refused (.notAnOperation why) := by
  simp only [step, takeOperation_cons h, hdec]

/-- Settles O5: one equation of `step` for each of its three cases. -/
theorem stepPerformsTheNextOperation : Obligations.StepPerformsTheNextOperation :=
  ⟨fun _ => step_idle, fun _ _ _ _ => step_decoded, fun _ _ _ _ => step_rejected⟩

end Sys2Proof.Machine.Proofs
end

section
/-! SUPPORT. The encodings at their three levels (spec 30_encoding.md rules R60 to R66): each packed field unpacks to
its operand, a code outside its level's table decodes to that level's unnamed row or to none, what decodes is well
formed, and a packet's last word performs the command of its twelve bytes. -/

namespace Sys2Proof.Machine.Proofs

open Sys2Proof.Machine.Laws Sys2Proof.Claims

/-! ### Packed fields -/

/-- A slot write's value is bits 15:0 of its slot word (rule R42). -/
theorem slotValue_setWidth (v : Reg) : slotValue (v.setWidth 32) = v :=
  (BitVec.extractLsb'_setWidth_of_le (by decide)).trans BitVec.extractLsb'_eq_self

/-- Rule R68. -/
theorem size16_byteAt (size : BitVec 16) : size16 (byteAt size 1) (byteAt size 0) = size :=
  (BitVec.extractLsb'_append_extractLsb'_eq_extractLsb' rfl).trans BitVec.extractLsb'_eq_self

/-- Rule R69. -/
theorem count24_byteAt (count : BitVec 24) :
    count24 (byteAt count 2) (byteAt count 1) (byteAt count 0) = count := by
  have hhigh : byteAt count 2 ++ byteAt count 1 = count.extractLsb' 8 16 :=
    BitVec.extractLsb'_append_extractLsb'_eq_extractLsb' rfl
  rw [count24, hhigh]
  exact (BitVec.extractLsb'_append_extractLsb'_eq_extractLsb' rfl).trans BitVec.extractLsb'_eq_self

/-- Bit 0 of a byte, under whatever its bits 7:1 hold (rule R66: GET_TOC's `area`, CD_READ's `msf`). -/
theorem bit0_append (hi : BitVec 7) (b : Bool) : (hi ++ BitVec.ofBool b).getLsbD 0 = b := by
  rw [BitVec.getLsbD_append]
  cases b <;> rfl

/-- Bits 3:1 of CD_READ's byte 1 (rule R66). -/
theorem fmt_append (mask : BitVec 4) (fmt : BitVec 3) (b : Bool) :
    (mask ++ fmt ++ BitVec.ofBool b).extractLsb' 1 3 = fmt :=
  (BitVec.extractLsb'_append_eq_of_le (by decide)).trans BitVec.extractLsb'_append_eq_right

/-- Bits 7:4 of CD_READ's byte 1 (rule R66). -/
theorem mask_append (mask : BitVec 4) (fmt : BitVec 3) (b : Bool) :
    (mask ++ fmt ++ BitVec.ofBool b).extractLsb' 4 4 = mask :=
  (BitVec.extractLsb'_append_eq_of_le (by decide)).trans BitVec.extractLsb'_append_eq_left

/-! ### The codes of each level, by number -/

theorem mem_hostCodes_iff (code : BitVec 5) :
    code ∈ hostCodes ↔ code.toNat ≤ 9 ∨ (16 ≤ code.toNat ∧ code.toNat ≤ 24) ∨ code.toNat = 26 := by
  simp only [hostCodes, List.mem_cons, List.not_mem_nil, or_false, ← BitVec.toNat_inj, BitVec.reduceToNat]
  omega

/-- A code outside the slot table is no operation, whatever its operand (rule R62). -/
theorem decodeHost_noSuchSlot {op : HostOp} (h : op.code ∉ hostCodes) :
    decodeHost op = .error (.noSuchSlot op.code) := by
  have hcode := mt (mem_hostCodes_iff op.code).mpr h
  unfold decodeHost
  split
  case h_21 => exact if_neg h
  all_goals omega

theorem not_mem_ataCodes_iff (c : Byte) :
    c ∉ ataCodes ↔ c.toNat ≠ 0x00 ∧ c.toNat ≠ 0x08 ∧ c.toNat ≠ 0x90 ∧ c.toNat ≠ 0xA0 ∧ c.toNat ≠ 0xA1 ∧
      c.toNat ≠ 0xEF := by
  simp only [ataCodes, List.mem_cons, List.not_mem_nil, or_false, not_or, ← BitVec.toNat_inj, BitVec.reduceToNat,
    ne_eq]

theorem decodeAta_unnamed {c : Byte} (h : c ∉ ataCodes) : decodeAta c = .ataUnknown c := by
  have hcode := (not_mem_ataCodes_iff c).mp h
  unfold decodeAta
  split
  case h_7 => rfl
  all_goals omega

theorem not_mem_spiCodes_iff (c : Byte) :
    c ∉ spiCodes ↔ c.toNat ≠ 0x00 ∧ c.toNat ≠ 0x10 ∧ c.toNat ≠ 0x11 ∧ c.toNat ≠ 0x12 ∧ c.toNat ≠ 0x13 ∧
      c.toNat ≠ 0x14 ∧ c.toNat ≠ 0x15 ∧ c.toNat ≠ 0x16 ∧ c.toNat ≠ 0x20 ∧ c.toNat ≠ 0x21 ∧ c.toNat ≠ 0x22 ∧
      c.toNat ≠ 0x30 ∧ c.toNat ≠ 0x31 ∧ c.toNat ≠ 0x40 ∧ c.toNat ≠ 0x70 ∧ c.toNat ≠ 0x71 := by
  simp only [spiCodes, List.mem_cons, List.not_mem_nil, or_false, not_or, ← BitVec.toNat_inj, BitVec.reduceToNat,
    ne_eq]

theorem decodeSpi_unnamed {p : Packet} (h : p[0] ∉ spiCodes) : decodeSpi p = .spiUnknown p[0] := by
  have hcode := (not_mem_spiCodes_iff p[0]).mp h
  unfold decodeSpi
  split
  case h_17 => rfl
  all_goals omega

/-! ### What decodes is well formed -/

/-- Of a host operation only a disc is judged elsewhere, when it is bound. -/
theorem decodeHost_wellFormed {op : HostOp} {i : Instr} (h : decodeHost op = .ok i)
    (hd : ∀ d, i ≠ .bind (some d)) : i.wellFormed := by
  unfold decodeHost at h
  split at h
  case h_20 d _ _ =>
    cases h
    cases d with
    | none => trivial
    | some d => exact absurd rfl (hd d)
  case h_21 => split at h <;> cases h
  all_goals
    cases h
    trivial

/-- A byte decodes to the unnamed row only when it is none of the named ones (rule R63). -/
theorem decodeAta_wellFormed (c : Byte) : (decodeAta c).wellFormed := by
  unfold decodeAta
  split
  case h_7 =>
    refine (not_mem_ataCodes_iff c).mpr ?_
    and_intros <;> assumption
  all_goals trivial

theorem decodeSpi_wellFormed (p : Packet) : (decodeSpi p).wellFormed := by
  unfold decodeSpi
  split
  case h_17 =>
    refine (not_mem_spiCodes_iff p[0]).mpr ?_
    and_intros <;> assumption
  all_goals trivial

theorem decodeAta_isSpi (c : Byte) : (decodeAta c).isSpi = false := by
  unfold decodeAta
  split <;> rfl

/-- Settles O2, level by level. -/
theorem decodedInstructionsAreWellFormed : Obligations.DecodedInstructionsAreWellFormed := by
  refine ⟨fun c i h hd => ?_, decodeSpi_isSpi, decodeAta_isSpi, fun _ _ => decodeHost_isSpi⟩
  cases c with
  | host op => exact decodeHost_wellFormed h hd
  | ata c =>
    cases h
    exact decodeAta_wellFormed c
  | spi p =>
    cases h
    exact decodeSpi_wellFormed p

/-! ### The round trip -/

/-- A decoded write carries the value its slot word was made from. -/
theorem decode_writeOp {slot : BitVec 4} {v : Reg} {mk : Reg → Instr}
    (h : ∀ w, decode (.host ⟨1#1 ++ slot, .word w⟩) = .ok (mk (slotValue w))) :
    decode (writeOp slot v) = .ok (mk v) := by
  rw [writeOp, h, slotValue_setWidth]

/-- CD_READ's operands, from the bytes of its packet (rules R66, R69). -/
theorem decode_cdRead (flags a b c hi mid lo : Byte) :
    decode (.spi #v[0x30, flags, a, b, c, 0, 0, 0, hi, mid, lo, 0]) =
      .ok (.spiCdRead (flags.getLsbD 0) (flags.extractLsb' 1 3) (flags.extractLsb' 4 4) a b c (count24 hi mid lo)) :=
  rfl

/-- Settles O1: a named code selects its row by evaluation, which leaves the values packed into a word or a packet
and the codes of the two unnamed rows. -/
theorem decodeOfEncodeIsTheInstruction : Obligations.DecodeOfEncodeIsTheInstruction := by
  intro i hi
  cases i
  case wrDevctrl | wrData | wrFeatures | wrSlot3 | wrSlot4 | wrBytecountLo | wrBytecountHi | wrDrvsel | wrCommand =>
    exact decode_writeOp fun _ => rfl
  case ataUnknown c => exact congrArg Except.ok (decodeAta_unnamed hi)
  case spiGetToc area size =>
    exact congrArg Except.ok (congrArg₂ Instr.spiGetToc (bit0_append 0 area) (size16_byteAt size))
  case spiCdSeek param =>
    exact congrArg (Except.ok ∘ Instr.spiCdSeek) BitVec.extractLsb'_append_eq_right
  case spiCdRead msf fmt mask a b c count =>
    rw [encode, decode_cdRead, bit0_append, fmt_append, mask_append, count24_byteAt]
  case spiGetScd format size =>
    exact congrArg Except.ok (congrArg₂ Instr.spiGetScd BitVec.extractLsb'_append_eq_right (size16_byteAt size))
  case spiUnknown c => exact congrArg Except.ok (decodeSpi_unnamed hi)
  all_goals rfl

/-! ### Refused codes and written-out words -/

/-- Settles O4. -/
theorem operationsOutsideTheSlotTableAreRefused : Obligations.OperationsOutsideTheSlotTableAreRefused := by
  intro s op rest hpend hcode
  refine step_rejected hpend (decodeHost_noSuchSlot fun hmem => ?_)
  have hnamed := (mem_hostCodes_iff op.code).mp hmem
  omega

/-- Settles O3: the six words are closed. -/
theorem writtenOutWordsDecode : Obligations.WrittenOutWordsDecode := by
  unfold Obligations.WrittenOutWordsDecode
  decide

/-! ### The packet's last word -/

/-- The packet latched once its last word is stored: the ten bytes before it and the word's two (rules R43, R64). -/
theorem packetOf_writeRange_ten {m : Memory} (lo hi : Byte) (hm : m.wf = true) :
    packetOf (m.writeRange 10 [lo, hi]) =
      #v[m.read 0, m.read 1, m.read 2, m.read 3, m.read 4, m.read 5, m.read 6, m.read 7, m.read 8, m.read 9,
        lo, hi] := by
  simp [packetOf, read_writeRange _ _ _ hm]

/-- The word that brings the cursor to 12 in the packet phase runs the packet's SPI command (rules R83, R115). -/
theorem wrData_completes_packet (v : Reg) {s : State} (hp : s.phase = .readAtaData) (hhead : s.pioHead = 10)
    (hsize : s.pioSize = 12) :
    wrData v s = effect (decodeSpi (packetOf (storeWord v s).pioBuf)) (storeWord v s) := by
  have hfits : ¬ s.pioSize < s.pioHead + 2 := by omega
  have hlegal : handles (storeWord v s).phase .pioWrite = true := (pioWrite_legal _).mpr (.inl hp)
  have hlast : (storeWord v s).phase = .readAtaData ∧ (storeWord v s).pioHead = 12 := ⟨hp, by simp [hhead]⟩
  rw [wrData, if_neg hfits, post_legal _ hlegal, pioWrite, if_pos hlast, spiCmd_eq_effect]

/-- A packet command binds no disc, so an unfaulted block performs it. -/
theorem exec_decodeSpi_ready (p : Packet) {s : State} (h : s.faulted = none) :
    exec (decodeSpi p) s = .next (effect (decodeSpi p) { s with response := .none }) := by
  refine exec_ready h fun d hd => ?_
  have hspi := decodeSpi_isSpi p
  rw [hd] at hspi
  cases hspi

/-- Settles O7: WR DATA and the packet's command have one effect, from the state with the word stored. -/
theorem sixthPacketWordPerformsItsSpiCommand : Obligations.SixthPacketWordPerformsItsSpiCommand := by
  intro v s hf hp hhead hsize hwf
  have hstore : storeWord v { s with response := .none } =
      { s with pioBuf := s.pioBuf.writeRange 10 [lowByte v, highByte v], pioHead := 12, response := .none } := by
    rw [storeWord, hhead]
  refine ⟨s.pioBuf.writeRange 10 [lowByte v, highByte v], fun i => read_writeRange 10 i _ hwf, ?_⟩
  have hwrite : exec (.wrData v) s = .next (wrData v { s with response := .none }) := exec_ready hf nofun
  rw [hwrite, wrData_completes_packet (s := { s with response := .none }) v hp hhead hsize, hstore,
    packetOf_writeRange_ten _ _ hwf]
  exact (exec_decodeSpi_ready (s := { s with pioBuf := _, pioHead := 12 }) _ hf).symm

end Sys2Proof.Machine.Proofs
end

section
/-! SUPPORT. What a host operation does to an unfaulted block (spec 40_register_access.md rules R80 to R100): the
register accesses and the bind in closed form, the data register and the DMA request case by case, each with the
condition that selects the case. -/

namespace Sys2Proof.Machine.Proofs

open Sys2Proof.Machine.Laws Sys2Proof.Claims

/-- On an unfaulted block an instruction answers whatever its effect is. -/
theorem exec_eq_next {i : Instr} {s t : State} (hf : s.faulted = none)
    (hd : ∀ d, i = .bind (some d) → d.meetsObligation) (h : effect i { s with response := .none } = t) :
    exec i s = .next t :=
  h ▸ exec_ready hf hd

/-- An answer over what an unfaulted handler leaves. -/
theorem answer_of_eq {r : Response} {s t : State} (h : s = t) (hf : t.faulted = none) :
    answer r s = { t with response := r } :=
  (congrArg (answer r) h).trans (answer_ready r hf)

/-! ### Halves of a register -/

/-- Two bytes side by side, as a number (rule R43). -/
theorem toNat_append_byte (hi lo : Byte) : (hi ++ lo).toNat = hi.toNat * 256 + lo.toNat := by
  rw [BitVec.toNat_append, ← Nat.shiftLeft_add_eq_or_of_lt lo.isLt, Nat.shiftLeft_eq]

/-- The word RD DATA returns, as the statements spell it (rules R42, R43). -/
theorem slotWord_dataWord (m : Memory) (i : Nat) :
    slotWord (dataWord (m.read i) (m.read (i + 1))) = wordAt m i := by
  rw [wordAt, ← toNat_append_byte, BitVec.ofNat_toNat]
  rfl

theorem putLo_eq_append (v : Byte) (r : Reg) : putLo v r = r.extractLsb' 8 8 ++ v := by
  apply BitVec.eq_of_getLsbD_eq
  intro j hj
  rw [putLo, getLsbD_putField _ _ _ _ hj, BitVec.getLsbD_append]
  by_cases h : j < 8
  · simp [h]
  · have h8 : 8 + (j - 8) = j := by omega
    have hj8 : j - 8 < 8 := by omega
    simp [h, h8, hj8]

theorem putHi_eq_append (v : Byte) (r : Reg) : putHi v r = v ++ r.extractLsb' 0 8 := by
  apply BitVec.eq_of_getLsbD_eq
  intro j hj
  rw [putHi, getLsbD_putField _ _ _ _ hj, BitVec.getLsbD_append]
  by_cases h : j < 8
  · simp [h]
  · have h8 : 8 ≤ j := by omega
    simp [h, h8, hj]

/-- Bits 7:0, as a number (rules R42, R43). -/
theorem toNat_lowByte (v : Reg) : (lowByte v).toNat = v.toNat % 256 := by
  simp [lowByte]

/-- Bits 15:8, as a number (rules R42, R43). -/
theorem toNat_highByte (v : Reg) : (highByte v).toNat = v.toNat / 256 := by
  have hv := v.isLt
  rw [highByte, BitVec.extractLsb'_toNat, Nat.shiftRight_eq_div_pow]
  omega

/-- A register of two bytes from their numbers. -/
theorem append_eq_ofNat (hi lo : Byte) : hi ++ lo = BitVec.ofNat 16 (hi.toNat * 256 + lo.toNat) := by
  rw [← toNat_append_byte, BitVec.ofNat_toNat, BitVec.setWidth_eq]

/-- The half of BYTECOUNT that a slot shows, zero-extended twice (rules R42, R90, R92). -/
theorem slotWord_setWidth_byte (b : Byte) : slotWord (b.setWidth 16) = BitVec.ofNat 32 b.toNat := by
  rw [slotWord, BitVec.ofNat_toNat]
  exact BitVec.setWidth_setWidth (by decide)

/-! ### Register accesses -/

/-- Settles O8: each of the reads is an answer and nothing else; the halves of BYTECOUNT by their numbers. -/
theorem plainReadsReturnTheRegisterAndChangeNothing :
    Obligations.PlainReadsReturnTheRegisterAndChangeNothing := by
  intro s hf
  have hlo : slotWord (s.byteCountLo.setWidth 16) = BitVec.ofNat 32 (s.byteCount.toNat % 256) := by
    rw [slotWord_setWidth_byte, ← toNat_lowByte]
    rfl
  have hhi : slotWord (s.byteCountHi.setWidth 16) = BitVec.ofNat 32 (s.byteCount.toNat / 256) := by
    rw [slotWord_setWidth_byte, ← toNat_highByte]
    rfl
  rw [← hlo, ← hhi]
  and_intros <;> exact exec_eq_next hf nofun (answer_ready _ hf)

/-- Settles O9: the clear of `irq`, then the answer. -/
theorem rdStatusReturnsStatusAndClearsIrq : Obligations.RdStatusReturnsStatusAndClearsIrq :=
  fun _ hf => exec_eq_next hf nofun (answer_ready _ hf)

/-- Settles O10: both are the operation that does nothing. -/
theorem writesToDevctrlAndDrvselChangeNothing : Obligations.WritesToDevctrlAndDrvselChangeNothing :=
  fun _ _ hf => ⟨exec_ready hf nofun, exec_ready hf nofun⟩

/-- Settles O11: the effect of the write is the one update. -/
theorem wrFeaturesStoresTheWholeValue : Obligations.WrFeaturesStoresTheWholeValue :=
  fun _ _ hf => exec_ready hf nofun

/-- Settles O12: each write puts its byte beside the other half. -/
theorem byteCountHalvesAreWrittenSeparately : Obligations.ByteCountHalvesAreWrittenSeparately := by
  intro v s hf
  have hlo : putLo (lowByte v) s.byteCount =
      BitVec.ofNat 16 (s.byteCount.toNat / 256 * 256 + v.toNat % 256) := by
    rw [putLo_eq_append, append_eq_ofNat, ← toNat_highByte, ← toNat_lowByte]
    rfl
  have hhi : putHi (lowByte v) s.byteCount =
      BitVec.ofNat 16 (v.toNat % 256 * 256 + s.byteCount.toNat % 256) := by
    rw [putHi_eq_append, append_eq_ofNat, ← toNat_lowByte, ← toNat_lowByte]
    rfl
  rw [← hlo, ← hhi]
  exact ⟨exec_ready hf nofun, exec_ready hf nofun⟩

/-- Settles O13: both are the operation that raises the fault. -/
theorem writesToReadOnlySlotsFault : Obligations.WritesToReadOnlySlotsFault :=
  fun _ _ hf => ⟨exec_ready hf nofun, exec_ready hf nofun⟩

/-- Settles O44: an operation that answers a next state found the block unfaulted. -/
theorem aFaultedBlockHasNoSuccessor : Obligations.AFaultedBlockHasNoSuccessor :=
  fun _ _ _ hfaulted h => hfaulted (exec_next h).1

/-! ### WR COMMAND -/

/-- An ATA command byte binds no disc, so its instruction is always performed. -/
theorem exec_decodeAta (c : Byte) (s : State) : exec (decodeAta c) s = operate (ataCmd c) s := by
  rw [ataCmd_eq_effect]
  exact exec_eq_operate _ s fun d hd => (hd ▸ decodeAta_wellFormed c : (Instr.bind (some d)).wellFormed)

/-- Settles O6: both sides perform `ata_cmd` of the low byte, and on an unfaulted block that answers. -/
theorem wrCommandPerformsItsAtaCommand : Obligations.WrCommandPerformsItsAtaCommand :=
  ⟨fun v s => (exec_decodeAta (commandByte v) s).symm, fun _ _ hf => ⟨_, exec_ready hf nofun⟩⟩

/-! ### BIND -/

/-- The soft reset in closed form (rules R138, R35). -/
theorem softReset_eq (s : State) : softReset s = { s with
    error := 0, status := (s.status &&& 0xFF3F#16) ||| 0x0040#16, sectnum := sectnumOf s.disc } := by
  rw [← ready_bits, ← softReset_sectnum]
  rfl

/-- Settles O25: the disc is stored and the soft reset follows, with SECTNUM as the disc gives it. -/
theorem bindReplacesTheDiscAndSoftResets : Obligations.BindReplacesTheDiscAndSoftResets := by
  intro s hf
  refine ⟨exec_eq_next hf nofun (softReset_eq _), fun d hd => ?_⟩
  rw [← sectnumOf_some]
  exact exec_eq_next hf (fun e he => by cases he; exact hd) (softReset_eq _)

/-! ### RD DATA -/

/-- Rule R82: the bound is checked first. -/
theorem rdData_bounds {s : State} (h : s.pioSize < s.pioHead + 2) : rdData s = raiseFault .bounds s := if_pos h

/-- Rules R82, R114: within the bound the cursor moves, and an illegal event faults. -/
theorem rdData_illegal {s : State} (hb : s.pioHead + 2 ≤ s.pioSize) (h : handles s.phase .pioRead = false) :
    rdData s = raiseFault .illegalEvent { s with pioHead := s.pioHead + 2 } := by
  rw [rdData, if_neg (Nat.not_lt.mpr hb), post_illegal (s := { s with pioHead := s.pioHead + 2 }) _ h]
  exact answer_faulted _ (raiseFault_faulted _ _)

/-- Rule R82: within the bound the cursor moves, the handler of a legal event runs, and the word latched before it
is returned. -/
theorem rdData_legal {s : State} (hb : s.pioHead + 2 ≤ s.pioSize) (h : handles s.phase .pioRead = true) :
    rdData s = answer (.word (wordAt s.pioBuf s.pioHead)) (pioRead { s with pioHead := s.pioHead + 2 }) := by
  rw [rdData, if_neg (Nat.not_lt.mpr hb), post_legal (s := { s with pioHead := s.pioHead + 2 }) _ h,
    slotWord_dataWord]

/-- PIO_READ before the end of a PIO reply does nothing (rule R116). -/
theorem pioRead_pio_below {s : State} (hp : s.phase = .writeSpiData) (h : s.pioHead ≠ s.pioSize) :
    pioRead s = s := by
  rw [pioRead, if_pos hp, if_neg h]

/-- Settles O14: out of bounds nothing is posted; out of phase the posted event is illegal. -/
theorem rdDataFaultsOutOfBoundsOrOutOfPhase : Obligations.RdDataFaultsOutOfBoundsOrOutOfPhase := by
  refine fun s hf => ⟨fun hb => exec_eq_next hf nofun (rdData_bounds hb), fun hb hp => ?_⟩
  have hillegal : handles s.phase .pioRead = false := by rcases hp with hp | hp | hp <;> rw [hp] <;> rfl
  exact exec_eq_next hf nofun (rdData_illegal hb hillegal)

/-- Settles O15: the event is legal and the buffer not drained. -/
theorem rdDataInsideTheBufferReturnsTheNextWord : Obligations.RdDataInsideTheBufferReturnsTheNextWord := by
  intro s hf hp hb
  have hlegal : handles s.phase .pioRead = true := (pioRead_legal _).mpr (.inl hp)
  have hstay := pioRead_pio_below (s := { s with pioHead := s.pioHead + 2, response := .none }) hp hb.ne
  exact exec_eq_next hf nofun (.trans (rdData_legal hb.le hlegal) (answer_of_eq hstay hf))

/-! ### WR DATA -/

/-- Rule R83: the bound is checked first. -/
theorem wrData_oversize (v : Reg) {s : State} (h : s.pioSize < s.pioHead + 2) :
    wrData v s = raiseFault .oversize s := if_pos h

/-- Rules R83, R114: within the bound the word is stored, and an illegal event faults. -/
theorem wrData_illegal (v : Reg) {s : State} (hb : s.pioHead + 2 ≤ s.pioSize)
    (h : handles s.phase .pioWrite = false) : wrData v s = raiseFault .illegalEvent (storeWord v s) := by
  rw [wrData, if_neg (Nat.not_lt.mpr hb)]
  exact post_illegal _ h

/-- Rule R83: within the bound the word is stored and the handler of a legal event runs. -/
theorem wrData_legal (v : Reg) {s : State} (hb : s.pioHead + 2 ≤ s.pioSize)
    (h : handles s.phase .pioWrite = true) : wrData v s = pioWrite (storeWord v s) := by
  rw [wrData, if_neg (Nat.not_lt.mpr hb)]
  exact post_legal _ h

/-- Below both thresholds PIO_WRITE does nothing (rule R115). -/
theorem pioWrite_below {s : State} (h12 : ¬ (s.phase = .readAtaData ∧ s.pioHead = 12))
    (hsize : ¬ (s.phase = .readSpiData ∧ s.pioHead = s.pioSize)) : pioWrite s = s := by
  rw [pioWrite, if_neg h12, if_neg hsize]

/-- WR DATA's two bytes, low byte first, are all that it stores (rule R43). -/
theorem stored_storeWord (v : Reg) {s : State} (hwf : s.pioBuf.wf = true) :
    Stored s.pioBuf (storeWord v s).pioBuf s.pioHead [v.extractLsb' 0 8, v.extractLsb' 8 8] :=
  fun i => read_writeRange s.pioHead i _ hwf

/-- Settles O18: out of bounds nothing is stored; out of phase the event is posted after the store, and is
illegal. -/
theorem wrDataFaultsOversizeOrOutOfPhase : Obligations.WrDataFaultsOversizeOrOutOfPhase := by
  refine fun v s hf hwf => ⟨fun hb => exec_eq_next hf nofun (wrData_oversize v hb), fun hb hp => ?_⟩
  have hillegal : handles s.phase .pioWrite = false := by rcases hp with hp | hp | hp <;> rw [hp] <;> rfl
  have hexec : exec (.wrData v) s = .next (raiseFault .illegalEvent (storeWord v s)) :=
    exec_eq_next hf nofun (wrData_illegal v hb hillegal)
  exact ⟨_, hexec, stored_storeWord v hwf, rfl⟩

/-- Settles O19: the event is legal and below the thresholds. -/
theorem wrDataBelowTheThresholdOnlyStores : Obligations.WrDataBelowTheThresholdOnlyStores := by
  intro v s hf hwf hb hp
  have hlegal : handles s.phase .pioWrite = true := (pioWrite_legal _).mpr (hp.imp And.left And.left)
  have h12 : ¬ (s.phase = .readAtaData ∧ s.pioHead + 2 = 12) := by
    rcases hp with ⟨-, hne⟩ | ⟨hp, -⟩
    · exact fun h => hne h.2
    · rw [hp]; nofun
  have hsize : ¬ (s.phase = .readSpiData ∧ s.pioHead + 2 = s.pioSize) := by
    rcases hp with ⟨hp, -⟩ | ⟨-, hne⟩
    · rw [hp]; nofun
    · exact fun h => hne h.2
  have hexec : exec (.wrData v) s = .next (storeWord v { s with response := .none }) :=
    exec_eq_next hf nofun (.trans (wrData_legal v hb hlegal) (pioWrite_below h12 hsize))
  exact ⟨_, hexec, stored_storeWord v hwf, rfl⟩

/-! ### DMARD -/

/-- A range read lists the bytes of its indices. -/
theorem readRange_eq_map (m : Memory) (a n : Nat) :
    m.readRange a n = (List.range n).map fun k => m.read (a + k) := by
  induction n generalizing a with
  | zero => rfl
  | succ n ih =>
    rw [Memory.readRange, ih, List.range_succ_eq_map, List.map_cons, List.map_map]
    simp [Function.comp_def, Nat.add_assoc, Nat.add_comm 1]

/-- PIO_READ before the end of the DMA buffer does nothing (rule R116, decision D18). -/
theorem pioRead_dma_below {s : State} (hp : s.phase = .writeDmaData) (h : s.dmaHead < s.dmaSize) :
    pioRead s = s := by
  rw [pioRead, if_neg (by rw [hp]; nofun), if_neg (Nat.not_le.mpr h)]

/-- PIO_READ at the end of the DMA buffer drains it (rule R116, decision D18). -/
theorem pioRead_dma_drained {s : State} (hp : s.phase = .writeDmaData) (h : s.dmaSize ≤ s.dmaHead) :
    pioRead s = drained s := by
  rw [pioRead, if_neg (by rw [hp]; nofun), if_pos h]

/-- A request for bytes in the DMA phase takes `k` of them and posts the read (rule R98). -/
theorem dmard_takes {n k : Nat} {s : State} (hp : s.phase = .writeDmaData) (hn : 1 ≤ n) (hk : dmaTake n s = k) :
    dmard n s = answer (.bytes ((List.range k).map fun j => s.dmaBuf.read (s.dmaHead + j)))
      (pioRead { s with dmaHead := s.dmaHead + k }) := by
  have hlegal : handles s.phase .pioRead = true := (pioRead_legal _).mpr (.inr hp)
  rw [dmard, if_neg (not_not.mpr hp), if_neg (Nat.not_lt.mpr hn), hk, readRange_eq_map]
  exact congrArg (answer _) (post_legal _ hlegal)

/-- Rule R98's two checks. -/
theorem dmard_faults {n : Nat} {s : State} (h : s.phase ≠ .writeDmaData ∨ n < 1) :
    dmard n s = raiseFault .dmaState s := by
  unfold dmard
  by_cases hp : s.phase = .writeDmaData
  · rw [if_neg (not_not.mpr hp)]
    exact if_pos (h.resolve_left (not_not.mpr hp))
  · exact if_pos hp

/-- Settles O21: one of the two checks fails before anything is read. -/
theorem dmardOutsideItsPhaseOrForNothingFaults : Obligations.DmardOutsideItsPhaseOrForNothingFaults :=
  fun _ _ hf h => exec_eq_next hf nofun (dmard_faults h)

/-- Settles O22: all of the request is taken, and the buffer is not drained. -/
theorem dmardBelowTheDrainReturnsTheNextBytes : Obligations.DmardBelowTheDrainReturnsTheNextBytes := by
  intro n s hf hp hn hlt
  have htake : dmaTake n s = n := Nat.min_eq_left (by omega)
  have hstay := pioRead_dma_below (s := { s with dmaHead := s.dmaHead + n, response := .none }) hp hlt
  exact exec_eq_next hf nofun (.trans (dmard_takes hp hn htake) (answer_of_eq hstay hf))

/-- A request that reaches the end of the buffer takes what is left and drains it (rules R98, R116). -/
theorem dmard_drains {n : Nat} {s : State} (hp : s.phase = .writeDmaData) (hn : 1 ≤ n)
    (hle : s.dmaHead ≤ s.dmaSize) (hend : s.dmaSize ≤ s.dmaHead + n) :
    dmard n s = answer
      (.bytes ((List.range (s.dmaSize - s.dmaHead)).map fun j => s.dmaBuf.read (s.dmaHead + j)))
      (drained { s with dmaHead := s.dmaSize }) := by
  have htake : dmaTake n s = s.dmaSize - s.dmaHead := Nat.min_eq_right (by omega)
  rw [dmard_takes hp hn htake, Nat.add_sub_cancel' hle]
  exact congrArg (answer _) (pioRead_dma_drained hp le_rfl)

/-- The completion of an SPI command in closed form (rule R120). -/
theorem spiEnd_eq (s : State) : spiEnd s = { s with
    intreason := (s.intreason &&& 0xFFFC#16) ||| 0x0003#16
    status := (s.status &&& 0xFF37#16) ||| 0x0040#16
    irq := true
    phase := .readAtaCmd } := by
  have hint : putIo true (putCod true s.intreason) = (s.intreason &&& 0xFFFC#16) ||| 0x0003#16 :=
    intreason_bits s.intreason true true
  rw [← spiEnd_bits, ← hint]
  rfl

/-- A drain with no sectors left completes the command (rule R116). -/
theorem drained_last {s : State} (h : s.cdr.remaining = 0) : drained s = spiEnd s := if_neg (by omega)

/-- A drain with sectors left reads on (rule R116). -/
theorem drained_more {s : State} (h : 0 < s.cdr.remaining) : drained s = cdRead s := if_pos h

/-- The DMA path of the read loop refills, when the disc keeps its obligation (rules R180, R181, R185). -/
theorem cdRead_dma {s : State} (hdma : s.cdr.dma = true) (hdisc : DiscKeepsObligation s) :
    cdRead s = refillDma dmaSectorBudget s := by
  have hfits := refillBytes_length hdisc
  rw [cdRead, if_pos hdma, cdReadDma, if_neg (Nat.not_lt.mpr hfits)]

/-- A refill in the DMA phase writes the buffer, its cursors and the progress record (rule R181). -/
theorem refillDma_in_phase {budget : Nat} {s : State} (hp : s.phase = .writeDmaData) :
    refillDma budget s = { s with
      dmaBuf := s.dmaBuf.writeRange 0 (refillBytes budget s)
      dmaSize := (refillBytes budget s).length
      dmaHead := 0
      cdr := s.cdr.advance (refillCount budget s) } := by
  rw [refillDma, ← hp]

/-- The sectors of a refill, as the statements spell them (rules R185, R187). -/
theorem readSectors_eq (disc : Option Disc) (fad : Nat) (fmt : BitVec 3) (mask : BitVec 4) (n : Nat) :
    readSectors disc fad fmt mask n = sectorBytes disc fad fmt mask n := by
  cases disc with
  | none => rfl
  | some d =>
    show sectorsFrom d fmt mask fad n = (List.range n).flatMap fun k => Disc.readSector d (fad + k) fmt mask
    induction n generalizing fad with
    | zero => rfl
    | succ n ih =>
      rw [sectorsFrom, ih, List.range_succ_eq_map, List.flatMap_cons, List.flatMap_map]
      simp [Nat.add_assoc, Nat.add_comm 1]

/-- Settles O23: the drain completes. -/
theorem drainingDmardCompletesTheCommand : Obligations.DrainingDmardCompletesTheCommand := by
  intro n s hf hp hn hle hend hr
  have hdrain := (drained_last (s := { s with dmaHead := s.dmaSize, response := .none }) hr).trans (spiEnd_eq _)
  exact exec_eq_next hf nofun (.trans (dmard_drains hp hn hle hend) (answer_of_eq hdrain hf))

/-- Settles O24: the drain refills on the DMA path, which writes no register and raises no interrupt. -/
theorem drainingDmardRefillsSilently : Obligations.DrainingDmardRefillsSilently := by
  intro n s hf hp hn hle hend hr hdma hwf hdisc
  have hbytes : refillBytes dmaSectorBudget s = sectorBytes s.disc s.cdr.fad s.cdr.fmt s.cdr.mask
      (min s.cdr.remaining (65536 / Config.maxSectorSize)) := readSectors_eq _ _ _ _ _
  have hdrain : drained { s with dmaHead := s.dmaSize, response := .none } = { s with
      dmaBuf := s.dmaBuf.writeRange 0 (refillBytes dmaSectorBudget s)
      dmaSize := (refillBytes dmaSectorBudget s).length
      dmaHead := 0
      cdr := s.cdr.advance (refillCount dmaSectorBudget s)
      response := .none } :=
    calc drained { s with dmaHead := s.dmaSize, response := .none }
        = cdRead { s with dmaHead := s.dmaSize, response := .none } := drained_more hr
      _ = refillDma dmaSectorBudget { s with dmaHead := s.dmaSize, response := .none } := cdRead_dma hdma hdisc
      _ = _ := refillDma_in_phase hp
  rw [hbytes] at hdrain
  exact ⟨_, _, _, exec_eq_next hf nofun (.trans (dmard_drains hp hn hle hend) (answer_of_eq hdrain hf)), rfl, rfl,
    fun i => read_writeRange 0 i _ hwf, rfl⟩

end Sys2Proof.Machine.Proofs
end

section
/-! SUPPORT. How a data phase ends (spec 41_state_machine.md rules R115 to R117): the read that drains a PIO buffer
and the write that completes a payload; and the packet command posted where no packet is received (rule R114). -/

namespace Sys2Proof.Machine.Proofs

open Sys2Proof.Machine.Laws Sys2Proof.Claims

/-! ### RD DATA of the last word -/

/-- PIO_READ at the end of a PIO buffer drains it (rule R116). -/
theorem pioRead_pio_drained {s : State} (hp : s.phase = .writeSpiData) (h : s.pioHead = s.pioSize) :
    pioRead s = drained s := by
  rw [pioRead, if_pos hp, if_pos h]

/-- The RD DATA of a PIO buffer's last word returns it and drains the buffer (rules R82, R116). -/
theorem rdData_drains {s : State} (hp : s.phase = .writeSpiData) (hend : s.pioHead + 2 = s.pioSize) :
    rdData s = answer (.word (wordAt s.pioBuf s.pioHead)) (drained { s with pioHead := s.pioSize }) := by
  have hlegal : handles s.phase .pioRead = true := (pioRead_legal _).mpr (.inl hp)
  rw [rdData_legal hend.le hlegal, hend]
  exact congrArg (answer _) (pioRead_pio_drained hp rfl)

/-- Settles O16: the drain completes. -/
theorem lastRdDataCompletesTheCommand : Obligations.LastRdDataCompletesTheCommand := by
  intro s hf hp hend hr
  have hdrain := (drained_last (s := { s with pioHead := s.pioSize, response := .none }) hr).trans (spiEnd_eq _)
  exact exec_eq_next hf nofun (.trans (rdData_drains hp hend) (answer_of_eq hdrain hf))

/-- The PIO path of the read loop refills, when the disc keeps its obligation (rules R180, R182, R185). -/
theorem cdRead_pio {s : State} (hpio : s.cdr.dma = false) (hdisc : DiscKeepsObligation s) :
    cdRead s = refillPio pioSectorBudget s := by
  have hfits : (refillBytes pioSectorBudget s).length ≤ 65536 := refillBytes_length hdisc
  rw [cdRead, hpio, if_neg Bool.false_ne_true, cdReadPio, if_neg (Nat.not_lt.mpr hfits)]

/-- A refill by PIO in closed form (rule R182). -/
theorem refillPio_eq (budget : Nat) (s : State) : refillPio budget s = { s with
    pioBuf := s.pioBuf.writeRange 0 (refillBytes budget s)
    pioHead := 0
    pioSize := (refillBytes budget s).length
    cdr := s.cdr.advance (refillCount budget s)
    byteCount := BitVec.ofNat 16 (refillBytes budget s).length
    intreason := (s.intreason &&& 0xFFFC#16) ||| 0x0002#16
    status := (s.status &&& 0xFF77#16) ||| 0x0008#16
    irq := true
    phase := .writeSpiData } := by
  have hint : putIo true (putCod false s.intreason) = (s.intreason &&& 0xFFFC#16) ||| 0x0002#16 :=
    intreason_bits s.intreason false true
  rw [← request_bits, ← hint]
  rfl

/-- Settles O17: the drain refills on the PIO path, which stays in its phase. -/
theorem drainingRdDataRefillsThePioBuffer : Obligations.DrainingRdDataRefillsThePioBuffer := by
  intro s hf hp hend hr hpio hwf hdisc
  have hbytes : refillBytes pioSectorBudget s = sectorBytes s.disc s.cdr.fad s.cdr.fmt s.cdr.mask
      (min s.cdr.remaining (65536 / Config.maxSectorSize)) := readSectors_eq _ _ _ _ _
  have hdrain : drained { s with pioHead := s.pioSize, response := .none } =
      { refillPio pioSectorBudget s with response := .none } :=
    calc drained { s with pioHead := s.pioSize, response := .none }
        = cdRead { s with pioHead := s.pioSize, response := .none } := drained_more hr
      _ = refillPio pioSectorBudget { s with pioHead := s.pioSize, response := .none } := cdRead_pio hpio hdisc
      _ = _ := rfl
  rw [refillPio_eq, hbytes, ← hp] at hdrain
  exact ⟨_, _, _, exec_eq_next hf nofun (.trans (rdData_drains hp hend) (answer_of_eq hdrain hf)), rfl, rfl,
    fun i => read_writeRange 0 i _ hwf, rfl⟩

/-! ### WR DATA of a payload's last word -/

/-- The word that completes a payload runs SPI_DATA after the store (rules R83, R115). -/
theorem wrData_completes_payload (v : Reg) {s : State} (hp : s.phase = .readSpiData)
    (hend : s.pioHead + 2 = s.pioSize) : wrData v s = spiData (storeWord v s) := by
  have hlegal : handles s.phase .pioWrite = true := (pioWrite_legal _).mpr (.inr hp)
  have hdata : handles s.phase .spiData = true := by rw [hp]; rfl
  have h12 : ¬ ((storeWord v s).phase = .readAtaData ∧ (storeWord v s).pioHead = 12) := by
    rw [storeWord_phase, hp]; nofun
  rw [wrData_legal v hend.le hlegal, pioWrite, if_neg h12, if_pos ⟨hp, hend⟩]
  exact post_legal _ hdata

/-- A payload within the hardware-info block is copied, and the command completes (rule R117). -/
theorem spiData_fits {s : State} (h : s.pioOffset + s.pioSize ≤ 32) : spiData s =
    spiEnd { s with hwInfo := hwInfoWrite s.hwInfo s.pioOffset (s.pioBuf.readRange 0 s.pioSize) } :=
  if_neg (Nat.not_lt.mpr h)

/-- A byte of the hardware-info block after a copy of buffer bytes from index 0 (rule R117). -/
theorem hwInfoWrite_readRange (hw : Vector Byte 32) (m : Memory) (offset size : Nat) (i : Fin 32) :
    (hwInfoWrite hw offset (m.readRange 0 size))[i] =
      if offset ≤ i.val ∧ i.val < offset + size then m.read (i.val - offset) else hw[i] := by
  simp only [hwInfoWrite, Fin.getElem_fin, Vector.getElem_ofFn, readRange_length]
  split
  next hi => rw [readRange_getD _ _ _ _ (by omega), Nat.zero_add]
  next => rfl

/-- Settles O20: the stored payload is copied, then the command completes. -/
theorem lastPayloadWordCopiesIntoHwInfo : Obligations.LastPayloadWordCopiesIntoHwInfo := by
  intro v s hf hp hwf hend hfits
  have hstore : storeWord v { s with response := .none } =
      { s with pioBuf := (storeWord v s).pioBuf, pioHead := s.pioSize, response := .none } := by
    rw [← hend]; rfl
  have hwrite : wrData v { s with response := .none } = spiEnd { s with
      pioBuf := (storeWord v s).pioBuf
      hwInfo := hwInfoWrite s.hwInfo s.pioOffset ((storeWord v s).pioBuf.readRange 0 s.pioSize)
      pioHead := s.pioSize
      response := .none } := by
    rw [wrData_completes_payload (s := { s with response := .none }) v hp hend, hstore]
    exact spiData_fits hfits
  exact ⟨_, exec_eq_next hf nofun (hwrite.trans (spiEnd_eq _)), stored_storeWord v hwf,
    hwInfoWrite_readRange _ _ _ _, rfl⟩

/-! ### Packet commands outside the packet phase -/

/-- Every packet command is the posting of SPI_CMD (rules R113, R150; log entry 16). -/
theorem effect_eq_post_spiCmd {i : Instr} (hi : i.isSpi = true) :
    ∃ handler, ∀ s, effect i s = post .spiCmd handler s := by
  cases i <;> cases hi <;> exact ⟨_, fun _ => rfl⟩

/-- SPI_CMD has no handler outside the packet phase (rule R112). -/
theorem spiCmd_unhandled {p : Phase} (hp : p ≠ .readAtaData) : handles p .spiCmd = false :=
  Bool.eq_false_of_not_eq_true (mt (spiCmd_legal p).mp hp)

/-- A packet command binds no disc. -/
theorem ne_bind_of_isSpi {i : Instr} (hi : i.isSpi = true) (d : Option Disc) : i ≠ .bind d := by
  rintro rfl
  cases hi

/-- Settles O43: the event posted is illegal in every other phase, whatever its handler. -/
theorem packetCommandsFaultOutsideThePacketPhase : Obligations.PacketCommandsFaultOutsideThePacketPhase := by
  intro i s hi hf hp
  obtain ⟨handler, heffect⟩ := effect_eq_post_spiCmd hi
  exact exec_eq_next hf (fun _ hd => absurd hd (ne_bind_of_isSpi hi _))
    ((heffect _).trans (post_illegal handler (spiCmd_unhandled hp)))

end Sys2Proof.Machine.Proofs
end

section
/-! SUPPORT. The ATA commands (spec 42_ata_commands.md rules R130 to R137): the preamble and the completion in closed
form, each command's arm over the two, and the register values they compose to. -/

namespace Sys2Proof.Machine.Proofs

open Sys2Proof.Machine.Laws Sys2Proof.Claims

/-! ### STATUS from before the preamble -/

/-- Two masked writes of a register in a row are one. -/
theorem maskedWrite_maskedWrite (r keep set keep' set' : Reg) :
    (((r &&& keep) ||| set) &&& keep') ||| set' = (r &&& (keep &&& keep')) ||| ((set &&& keep') ||| set') := by
  rw [BitVec.and_or_distrib_right, BitVec.and_assoc, BitVec.or_assoc]

/-- STATUS of an ATA command that completes (rules R130, R121): DRDY alone of the four fields. -/
theorem ready_after_ataPreamble_bits (r : Reg) :
    (((r &&& 0xFF36#16) ||| 0x0080#16) &&& 0xFF3F#16) ||| 0x0040#16 = (r &&& 0xFF36#16) ||| 0x0040#16 :=
  maskedWrite_maskedWrite _ _ _ _ _

/-- STATUS of an ATA command that completes with CHECK set (rules R130, R131, R121): DRDY and CHECK. -/
theorem check_ready_after_ataPreamble_bits (r : Reg) :
    (putCheck true ((r &&& 0xFF36#16) ||| 0x0080#16) &&& 0xFF3F#16) ||| 0x0040#16 =
      (r &&& 0xFF36#16) ||| 0x0041#16 := by
  rw [putCheck, putBit_true _ _ (by decide), BitVec.or_assoc]
  exact maskedWrite_maskedWrite _ _ _ _ _

/-- STATUS of PACKET_CMD (rules R130, R133): DRQ alone of the four fields. -/
theorem request_after_ataPreamble_bits (r : Reg) :
    putBsy false (putDrq true ((r &&& 0xFF36#16) ||| 0x0080#16)) = (r &&& 0xFF36#16) ||| 0x0008#16 :=
  (request_bits _).trans (maskedWrite_maskedWrite _ _ _ _ _)

/-! ### The preamble and the completion -/

/-- The preamble of an ATA command in closed form (rule R130). -/
theorem ataPreamble_eq (s : State) : ataPreamble s = { s with
    error := 0
    status := (s.status &&& 0xFF36#16) ||| 0x0080#16
    cdr := { s.cdr with remaining := 0 } } := by
  rw [← ataPreamble_bits]
  rfl

/-- The completion of an ATA command in closed form (rule R121). -/
theorem ataEnd_eq (s : State) : ataEnd s = { s with
    status := (s.status &&& 0xFF3F#16) ||| 0x0040#16
    intreason := (s.intreason &&& 0xFFFC#16) ||| 0x0003#16
    irq := true
    phase := .readAtaCmd } := by
  have hint : putIo true (putCod true s.intreason) = (s.intreason &&& 0xFFFC#16) ||| 0x0003#16 :=
    intreason_bits s.intreason true true
  rw [← ready_bits, ← hint]
  rfl

/-- A soft reset before the completion adds SECTNUM and ERROR: STATUS is the completion's either way (rule R138). -/
theorem ataEnd_softReset (s : State) :
    ataEnd (softReset s) = { ataEnd s with error := 0, sectnum := sectnumOf s.disc } := by
  have hready : (((s.status &&& 0xFF3F#16) ||| 0x0040#16) &&& 0xFF3F#16) ||| 0x0040#16 =
      (s.status &&& 0xFF3F#16) ||| 0x0040#16 := maskedWrite_maskedWrite _ _ _ _ _
  rw [softReset_eq, ataEnd_eq, ataEnd_eq, hready]

/-- The completion that follows a preamble, in closed form (rules R130, R121). -/
theorem ataEnd_ataPreamble (s : State) : ataEnd (ataPreamble s) = { s with
    error := 0
    status := (s.status &&& 0xFF36#16) ||| 0x0040#16
    intreason := (s.intreason &&& 0xFFFC#16) ||| 0x0003#16
    cdr := { s.cdr with remaining := 0 }
    irq := true
    phase := .readAtaCmd } := by
  rw [ataPreamble_eq, ataEnd_eq, ready_after_ataPreamble_bits]

/-! ### Each command -/

/-- NOP in closed form: its two bits are set between the preamble and the completion (rule R131). -/
theorem ataNop_eq (s : State) : ataNop s = { s with
    error := 0x0004
    status := (s.status &&& 0xFF36#16) ||| 0x0041#16
    intreason := (s.intreason &&& 0xFFFC#16) ||| 0x0003#16
    cdr := { s.cdr with remaining := 0 }
    irq := true
    phase := .readAtaCmd } := by
  have habrt : putAbrt true 0 = 0x0004 := by decide
  rw [← check_ready_after_ataPreamble_bits, ← habrt, ataNop, ataArm_eq, ataPreamble_eq, ataEnd_eq]

/-- Settles O27: the effect of NOP is its closed form, whatever the phase. -/
theorem ataNopSetsAbrtAndCheckAndCompletes : Obligations.AtaNopSetsAbrtAndCheckAndCompletes :=
  fun _ hf => exec_eq_next hf nofun (ataNop_eq _)

/-- SOFT_RESET is the completion after a preamble with SECTNUM written (rule R132). -/
theorem ataSoftReset_eq (s : State) :
    ataSoftReset s = { ataEnd (ataPreamble s) with error := 0, sectnum := sectnumOf s.disc } := by
  rw [ataSoftReset, ataArm_eq, ataEnd_softReset, ataPreamble_disc]

/-- Settles O28: both complete after the preamble, SOFT_RESET with SECTNUM as the bound disc gives it. -/
theorem softResetAndSetFeaturesComplete : Obligations.SoftResetAndSetFeaturesComplete := by
  intro s hf
  constructor
  · exact exec_eq_next hf nofun ((ataArm_eq _ _).trans (ataEnd_ataPreamble _))
  · refine exec_eq_next hf nofun ((ataSoftReset_eq _).trans ?_)
    rw [ataEnd_ataPreamble]
    cases s.disc with
    | none => rfl
    | some d => rw [sectnumOf_some]

/-- Settles O29: what PACKET_CMD writes over its preamble, with its registers as masks. -/
theorem packetCmdArmsThePacketReceipt : Obligations.PacketCmdArmsThePacketReceipt := by
  intro s hf
  have hint : putIo false (putCod true s.intreason) = (s.intreason &&& 0xFFFC#16) ||| 0x0001#16 :=
    intreason_bits s.intreason true false
  rw [← request_after_ataPreamble_bits, ← hint]
  refine exec_eq_next hf nofun ((ataPacketCmd_eq _).trans ?_)
  rw [ataPreamble_eq]

/-- Settles O30: each of the three arms is the fault, over the preamble in closed form. -/
theorem unsupportedAtaCommandsFault : Obligations.UnsupportedAtaCommandsFault := by
  intro s c hf
  have hfault (cause : Cause) : ataArm (raiseFault cause) { s with response := .none } = { s with
      error := 0
      status := (s.status &&& 0xFF36#16) ||| 0x0080#16
      cdr := { s.cdr with remaining := 0 }
      faulted := some cause
      response := .none } := by
    rw [ataArm_eq, ataPreamble_eq, raiseFault]
  and_intros <;> exact exec_eq_next hf nofun (hfault _)

end Sys2Proof.Machine.Proofs
end

section
/-! SUPPORT. The packet commands that send no data (spec 43_spi_commands.md rules R150, R151, R162 to R165, R167, R169,
R171): the preamble in closed form, what follows it, and the drive status in SECTNUM. -/

namespace Sys2Proof.Machine.Proofs

open Sys2Proof.Machine.Laws Sys2Proof.Claims

/-! ### What follows the preamble -/

/-- The preamble of an SPI command in closed form (rules R150, R16; log entry 11). -/
theorem spiPreamble_eq (s : State) :
    spiPreamble s = { s with status := (s.status &&& 0xFF37#16) ||| 0x0080#16 } := by
  rw [← busy_bits]
  rfl

/-- In its phase a packet command answers what its arm makes of the preamble (rules R113, R150). -/
theorem exec_spiArm {i : Instr} {arm : State → State} {s t : State} (hf : s.faulted = none)
    (hp : s.phase = .readAtaData) (hd : ∀ d, i ≠ .bind d) (hi : effect i = spiArm arm)
    (h : arm (spiPreamble { s with response := .none }) = t) : exec i s = .next t := by
  refine exec_eq_next hf (fun _ hbind => absurd hbind (hd _)) ?_
  rw [hi, spiArm_eq (s := { s with response := .none }) arm hp, h]

/-- The completion after the preamble (rules R150, R120). -/
theorem spiEnd_spiPreamble (s : State) : spiEnd (spiPreamble { s with response := .none }) = spiCompleted s := by
  have hstatus : (((s.status &&& 0xFF37#16) ||| 0x0080#16) &&& 0xFF37#16) ||| 0x0040#16 =
      (s.status &&& 0xFF37#16) ||| 0x0040#16 := maskedWrite_maskedWrite _ _ _ _ _
  rw [spiPreamble_eq, spiEnd_eq, hstatus, spiCompleted]

/-- A fault after the preamble (rules R150, R201). -/
theorem raiseFault_spiPreamble (c : Cause) (s : State) :
    raiseFault c (spiPreamble { s with response := .none }) = spiFaulted c s := by
  rw [spiPreamble_eq, raiseFault, spiFaulted]

/-- A packet command whose effect is a fault after the preamble. -/
theorem exec_spiFaulted {i : Instr} {c : Cause} {s : State} (hf : s.faulted = none) (hd : ∀ d, i ≠ .bind d)
    (h : effect i { s with response := .none } = raiseFault c (spiPreamble { s with response := .none })) :
    exec i s = .next (spiFaulted c s) :=
  exec_eq_next hf (fun _ hbind => absurd hbind (hd _)) (h.trans (raiseFault_spiPreamble c s))

/-- Settles O31: the arm of both is the completion. -/
theorem noDataCommandsComplete : Obligations.NoDataCommandsComplete := fun s hf hp =>
  ⟨exec_spiArm hf hp nofun rfl (spiEnd_spiPreamble s), exec_spiArm hf hp nofun rfl (spiEnd_spiPreamble s)⟩

/-- Settles O42: the arm of each is its fault. -/
theorem unsupportedSpiCommandsFault : Obligations.UnsupportedSpiCommandsFault := by
  intro s c hf hp
  and_intros <;> exact exec_spiArm hf hp nofun rfl (raiseFault_spiPreamble _ s)

/-! ### The drive status -/

/-- `SECTNUM.status <- v` as a mask (rule R14). -/
theorem putDriveStatus_eq (v : BitVec 4) (r : Reg) : putDriveStatus v r = (r &&& 0xFFF0#16) ||| v.setWidth 16 := by
  rw [putDriveStatus, putField, BitVec.shiftLeft_zero, BitVec.shiftLeft_zero]
  rfl

/-- The completion with a drive status, after the preamble (rules R150, R163 to R165). -/
theorem driveStatusEnd_spiPreamble (v : BitVec 4) (s : State) :
    driveStatusEnd v (spiPreamble { s with response := .none }) =
      { spiCompleted s with sectnum := (s.sectnum &&& 0xFFF0#16) ||| v.setWidth 16 } := by
  rw [← putDriveStatus_eq, ← spiEnd_spiPreamble]
  rfl

/-- CD_SEEK with a parameter that asks for a drive status (rule R164). -/
theorem spiCdSeek_some {param v : BitVec 4} {s : State} (hp : s.phase = .readAtaData)
    (h : seekStatus param = some v) : spiCdSeek param s = driveStatusEnd v (spiPreamble s) := by
  rw [spiCdSeek, spiArm_eq _ hp, h]

/-- CD_SEEK with any other parameter (rule R164). -/
theorem spiCdSeek_none {param : BitVec 4} {s : State} (hp : s.phase = .readAtaData)
    (h : seekStatus param = none) : spiCdSeek param s = raiseFault .badParam (spiPreamble s) := by
  rw [spiCdSeek, spiArm_eq _ hp, h]

/-- Settles O32: CD_PLAY and CD_SCAN are the completion with PAUSE; CD_SEEK by what its parameter asks for. -/
theorem playScanAndSeekSetTheDriveStatus : Obligations.PlayScanAndSeekSetTheDriveStatus := by
  intro s hf hp paused
  have hother : ∀ param : BitVec 4, param = 0 ∨ 4 < param.toNat → seekStatus param = none := by decide
  have hplay := driveStatusEnd_spiPreamble drivePause s
  have hseek {param v : BitVec 4} (h : seekStatus param = some v) : exec (.spiCdSeek param) s =
      .next { spiCompleted s with sectnum := (s.sectnum &&& 0xFFF0#16) ||| v.setWidth 16 } :=
    exec_eq_next hf nofun
      ((spiCdSeek_some (s := { s with response := .none }) hp h).trans (driveStatusEnd_spiPreamble v s))
  refine ⟨exec_spiArm hf hp nofun rfl hplay, exec_spiArm hf hp nofun rfl hplay, fun param => ⟨fun h => ?_, fun h => ?_,
    fun h => ?_⟩⟩
  · exact hseek (v := drivePause) (if_pos h)
  · exact hseek (v := driveStandby) (h ▸ rfl)
  · exact exec_spiFaulted hf nofun (spiCdSeek_none (s := { s with response := .none }) hp (hother param h))

end Sys2Proof.Machine.Proofs
end

section
/-! SUPPORT. The packet commands that answer a slice of a fixed object (spec 43_spi_commands.md rules R152 to R154,
R156, R157, R168, R170, R172): every such reply is armed or faults by its size alone, and each object is written out. -/

namespace Sys2Proof.Machine.Proofs

open Sys2Proof.Machine.Laws Sys2Proof.Claims

/-! ### Sliced replies -/

/-- STATUS of a packet command that arms a PIO phase (rules R150, R118, R119, R182). -/
theorem request_after_spiPreamble_bits (r : Reg) :
    putBsy false (putDrq true ((r &&& 0xFF37#16) ||| 0x0080#16)) = (r &&& 0xFF37#16) ||| 0x0008#16 :=
  (request_bits _).trans (maskedWrite_maskedWrite _ _ _ _ _)

/-- A payload of the armed size, sent after the preamble, is the armed phase of the statements (rules R150, R118). -/
theorem armed_armPioOut {payload : List Byte} {size : Nat} {s : State} (hwf : s.pioBuf.wf = true)
    (hlen : payload.length = size) :
    Armed s (armPioOut payload size (spiPreamble { s with response := .none })) payload := by
  subst hlen
  have hint : putIo true (putCod false s.intreason) = (s.intreason &&& 0xFFFC#16) ||| 0x0002#16 :=
    intreason_bits s.intreason false true
  constructor
  · rw [← request_after_spiPreamble_bits, ← hint, spiPreamble_eq]
    rfl
  · intro i
    rw [armPioOut_pioBuf, List.take_length]
    exact read_writeRange 0 i payload hwf

/-- A slice of an object of `n` bytes is armed, or faults when it reaches beyond them (rules R172, R118). -/
theorem exec_slicedReply {i : Instr} {s : State} {o : List Byte} {n offset size : Nat} (hwf : s.pioBuf.wf = true)
    (hn : o.length = n) (hfits : n ≤ 65536)
    (h : exec i s = .next (replySlice o offset size (spiPreamble { s with response := .none }))) :
    (offset + size ≤ n → ∃ t, exec i s = .next t ∧ Armed s t ((o.drop offset).take size)) ∧
    (n < offset + size → exec i s = .next (spiFaulted .oversize s)) := by
  subst hn
  constructor
  · intro hle
    rw [h, replySlice_fits _ hle (by omega)]
    exact ⟨_, rfl, armed_armPioOut hwf (slice_length hle)⟩
  · intro hlt
    rw [h, replySlice_oversize _ hlt, raiseFault_spiPreamble]

/-- The same for an object truncated to the requested size. -/
theorem exec_truncatedReply {i : Instr} {s : State} {o : List Byte} {n size : Nat} (hwf : s.pioBuf.wf = true)
    (hn : o.length = n) (hfits : n ≤ 65536)
    (h : exec i s = .next (replySlice o 0 size (spiPreamble { s with response := .none }))) :
    (size ≤ n → ∃ t, exec i s = .next t ∧ Armed s t (o.take size)) ∧
    (n < size → exec i s = .next (spiFaulted .oversize s)) := by
  have hslice := exec_slicedReply hwf hn hfits h
  rwa [Nat.zero_add] at hslice

/-! ### The status reply -/

/-- Two nibbles sharing a byte, as a number (rule R75). -/
theorem nibbles_eq_ofNat (hi lo : BitVec 4) : nibbles hi lo = BitVec.ofNat 8 (hi.toNat * 16 + lo.toNat) := by
  have hnat : (hi ++ lo).toNat = hi.toNat * 16 + lo.toNat := by
    rw [BitVec.toNat_append, ← Nat.shiftLeft_add_eq_or_of_lt lo.isLt, Nat.shiftLeft_eq]
  rw [nibbles, ← hnat, BitVec.ofNat_toNat, BitVec.setWidth_eq]

/-- SECTNUM's low nibble in a byte of its own (rules R14, R75). -/
theorem nibbles_driveStatus (s : State) : nibbles 0 s.driveStatus = BitVec.ofNat 8 (s.sectnum.toNat % 16) := by
  have hlow : s.driveStatus.toNat = s.sectnum.toNat % 16 := by simp [State.driveStatus]
  rw [nibbles_eq_ofNat, hlow]
  simp

/-- SECTNUM's format nibble above a nibble of zeros (rules R14, R75). -/
theorem nibbles_discFormat (s : State) :
    nibbles s.discFormat 0 = BitVec.ofNat 8 (s.sectnum.toNat / 16 % 16 * 16) := by
  have hhigh : s.discFormat.toNat = s.sectnum.toNat / 16 % 16 := by
    rw [State.discFormat, BitVec.extractLsb'_toNat, Nat.shiftRight_eq_div_pow]
  rw [nibbles_eq_ofNat, hhigh]
  simp

/-- The ten bytes of the status reply (rule R153). -/
theorem statusReply_eq (s : State) : statusReply s =
    [BitVec.ofNat 8 (s.sectnum.toNat % 16), BitVec.ofNat 8 (s.sectnum.toNat / 16 % 16 * 16), 0x04, 0x02, 0x00, 0x00,
      0x00, 0x00, 0x00, 0x00] := by
  rw [← nibbles_driveStatus, ← nibbles_discFormat]
  rfl

/-- Settles O33: a slice of the status reply, whose SECTNUM the preamble leaves. -/
theorem reqStatArmsTheStatusReply : Obligations.ReqStatArmsTheStatusReply := by
  intro offset size s hf hp hwf
  refine exec_slicedReply hwf rfl (by decide)
    (exec_spiArm (arm := fun t => replySlice (statusReply t) offset.toNat size.toNat t) hf hp nofun rfl ?_)
  rw [statusReply_eq]
  rfl

/-- Settles O34: a slice of the hardware-info block. -/
theorem reqModeArmsTheHwInfoSlice : Obligations.ReqModeArmsTheHwInfoSlice := fun offset size s hf hp hwf =>
  exec_slicedReply hwf (Vector.length_toList (xs := s.hwInfo)) (by decide)
    (exec_spiArm (arm := fun t => replySlice t.hwInfo.toList offset.toNat size.toNat t) hf hp nofun rfl rfl)

/-! ### The fixed replies -/

/-- Bytes 2 and 3 of the subcode reply (rule R168). -/
theorem scdLength_eq (format : BitVec 4) :
    scdLength format = [0x00, if format = 0 then 0x64 else if format = 1 then 0x0E else 0x00] := by
  unfold scdLength
  split_ifs <;> rfl

/-- Settles O35: two truncated replies, and one of its object's own size. -/
theorem reqErrorGetScdAndReqSecuArmTheirReplies : Obligations.ReqErrorGetScdAndReqSecuArmTheirReplies := by
  refine fun s hf hp hwf => ⟨fun size => ?_, fun format size => ?_, ?_⟩
  · exact exec_truncatedReply hwf rfl (by decide) (exec_spiArm hf hp nofun rfl rfl)
  · refine exec_truncatedReply hwf (by simp) (by decide) (exec_spiArm hf hp nofun rfl ?_)
    rw [scdReply, scdLength_eq]
    rfl
  · have hlen : secuReply.length = 126 := by simp [secuReply]
    exact ⟨_, exec_spiArm hf hp nofun rfl (if_neg (by decide)), armed_armPioOut hwf hlen⟩

end Sys2Proof.Machine.Proofs
end

section
/-! SUPPORT. The disc queries GET_TOC and REQ_SES (spec 43_spi_commands.md rules R158 to R161): the table of contents
slot by slot, the session's track and FAD, and the faults of a request without an answer. -/

namespace Sys2Proof.Machine.Proofs

open Sys2Proof.Machine.Laws Sys2Proof.Claims

/-! ### The slots of a table of contents -/

/-- The loop over track numbers within 1 to 99 fills their slots and no other (rule R159). -/
theorem tocFill_inRange {d : Disc} {n t : Nat} {slots : List (List Byte)}
    (h : ∀ k, k < n → 1 ≤ t + k ∧ t + k ≤ 99) : tocFill d n t slots = some (slots.mapIdx fun k slot =>
      if t ≤ k + 1 ∧ k + 1 < t + n then tocEntry (Disc.getTrack d k) else slot) := by
  induction n generalizing t slots with
  | zero =>
    refine congrArg some (List.ext_getElem (by simp) fun k _ _ => ?_)
    rw [List.getElem_mapIdx, if_neg (by omega)]
  | succ n ih =>
    have ht := h 0 (by omega)
    rw [tocFill, if_neg (by omega), ih fun k hk => by have := h (k + 1) (by omega); omega]
    refine congrArg some (List.ext_getElem (by simp) fun k _ _ => ?_)
    rw [List.getElem_mapIdx, List.getElem_mapIdx, List.getElem_set]
    by_cases hk : t - 1 = k
    · rw [if_neg (by omega), if_pos hk, if_pos (by omega), hk]
    · simp only [if_neg hk, show (t + 1 ≤ k + 1 ∧ k + 1 < t + 1 + n) ↔ (t ≤ k + 1 ∧ k + 1 < t + (n + 1)) by omega]

/-- The loop stops at a track number outside 1 to 99 (rule R159). -/
theorem tocFill_outOfRange {d : Disc} {n t k : Nat} {slots : List (List Byte)} (hk : k < n)
    (h : t + k < 1 ∨ 99 < t + k) : tocFill d n t slots = none := by
  induction n generalizing t k slots with
  | zero => omega
  | succ n ih =>
    rw [tocFill]
    split
    · rfl
    · exact ih (k := k - 1) (by omega) (by omega)

/-- Entry slot `k` of a table of contents: track `k + 1` where the range has it (rule R159). -/
def tocEntrySlot (d : Disc) (toc : Toc) (k : Nat) : List Byte :=
  if toc.firstTrack.num ≤ k + 1 ∧ k + 1 ≤ toc.lastTrack.num then tocEntry (Disc.getTrack d k) else tocInvalid

/-- The 102 slots of a table of contents (rule R159). -/
def tocSlots (d : Disc) (toc : Toc) : List (List Byte) :=
  (List.range 99).map (tocEntrySlot d toc) ++
    [tocEnd toc.firstTrack, tocEnd toc.lastTrack, Config.tocPadL0 :: be24 toc.leadoutFad]

/-- Track numbers within 1 to 99 give a reply, its slots in order (rule R159). -/
theorem tocReply_inRange {d : Disc} {area : Bool} {toc : Toc} (htoc : toc = Disc.getToc d area)
    (hfirst : 1 ≤ toc.firstTrack.num) (hlast : toc.lastTrack.num ≤ 99) :
    tocReply d area = some (tocSlots d toc).flatten := by
  have hentries : ((List.replicate 99 tocInvalid).mapIdx fun k slot =>
      if toc.firstTrack.num ≤ k + 1 ∧ k + 1 < toc.firstTrack.num + (toc.lastTrack.num + 1 - toc.firstTrack.num)
      then tocEntry (Disc.getTrack d k) else slot) = (List.range 99).map (tocEntrySlot d toc) := by
    have hlen : (List.replicate 99 tocInvalid).length = (List.range 99).length := by
      rw [List.length_replicate, List.length_range]
    refine List.ext_getElem (by rw [List.length_mapIdx, List.length_map, hlen]) fun k _ _ => ?_
    rw [List.getElem_mapIdx, List.getElem_map, List.getElem_range, List.getElem_replicate]
    exact if_congr (by omega) rfl rfl
  rw [tocReply, ← htoc, tocFill_inRange fun k hk => by omega, hentries]
  simp [tocSlots]

/-- A track number outside 1 to 99 in a range that is not empty gives none (rule R159). -/
theorem tocReply_outOfRange {d : Disc} {area : Bool} {toc : Toc} (htoc : toc = Disc.getToc d area)
    (hne : toc.firstTrack.num ≤ toc.lastTrack.num) (h : toc.firstTrack.num < 1 ∨ 99 < toc.lastTrack.num) :
    tocReply d area = none := by
  have hfill (slots : List (List Byte)) :
      tocFill d (toc.lastTrack.num + 1 - toc.firstTrack.num) toc.firstTrack.num slots = none := by
    rcases h with h | h
    · exact tocFill_outOfRange (k := 0) (by omega) (.inl h)
    · exact tocFill_outOfRange (k := toc.lastTrack.num - toc.firstTrack.num) (by omega) (.inr (by omega))
  rw [tocReply, ← htoc, hfill]

theorem tocSlots_length (d : Disc) (toc : Toc) : (tocSlots d toc).length = 102 := by simp [tocSlots]

theorem tocSlots_slot_length (d : Disc) (toc : Toc) : ∀ slot ∈ tocSlots d toc, slot.length = 4 := by
  intro slot h
  simp only [tocSlots, List.mem_append, List.mem_map, List.mem_cons, List.not_mem_nil, or_false] at h
  rcases h with ⟨k, -, rfl⟩ | rfl | rfl | rfl
  · unfold tocEntrySlot
    split_ifs <;> rfl
  all_goals rfl

/-- Slots of four bytes each are found again in their concatenation. -/
theorem tocSlot_flatten {slots : List (List Byte)} {k : Nat} (h : ∀ slot ∈ slots, slot.length = 4)
    (hk : k < slots.length) : tocSlot slots.flatten k = slots[k] := by
  induction slots generalizing k with
  | nil => cases hk
  | cons slot slots ih =>
    have hslot : slot.length = 4 := h slot List.mem_cons_self
    cases k with
    | zero => exact List.take_left' hslot
    | succ k =>
      rw [List.getElem_cons_succ, ← ih (fun x hx => h x (List.mem_cons_of_mem slot hx)) (Nat.lt_of_succ_lt_succ hk),
        tocSlot, tocSlot, List.flatten_cons, Nat.mul_succ, Nat.add_comm, ← hslot, List.drop_length_add_append]

theorem tocSlot_tocSlots {d : Disc} {toc : Toc} {k : Nat} (hk : k < 102) :
    tocSlot (tocSlots d toc).flatten k = (tocSlots d toc)[k]'(by rwa [tocSlots_length]) :=
  tocSlot_flatten (tocSlots_slot_length d toc) _

theorem tocSlot_entry {d : Disc} {toc : Toc} {k : Nat} (hk : k < 99) :
    tocSlot (tocSlots d toc).flatten k = tocEntrySlot d toc k := by
  rw [tocSlot_tocSlots (by omega)]
  simp [tocSlots, hk]

theorem tocSlots_flatten_length (d : Disc) (toc : Toc) : (tocSlots d toc).flatten.length = 408 := by
  rw [List.length_flatten, List.map_eq_replicate_iff.mpr (tocSlots_slot_length d toc), tocSlots_length]
  rfl

/-- A track's first byte as the statements spell it (rules R75, R159). -/
theorem nibbles_eq_trackByte (t : Track) : nibbles t.ctrl t.adr = trackByte t := nibbles_eq_ofNat _ _

theorem tocEntry_eq (t : Track) : tocEntry t = trackByte t :: fadBytes t.fad := by
  rw [tocEntry, nibbles_eq_trackByte]
  rfl

theorem tocEnd_eq (t : Track) :
    tocEnd t = [trackByte t, BitVec.ofNat 8 t.num, Config.tocPadB2, Config.tocPadB3] := by
  rw [tocEnd, nibbles_eq_trackByte]

/-! ### GET_TOC, in the order of its checks -/

/-- Rule R158: no disc. -/
theorem spiGetToc_noDisc {area : Bool} {size : BitVec 16} {s : State} (hp : s.phase = .readAtaData)
    (hd : s.disc = none) : spiGetToc area size s = raiseFault .noDisc (spiPreamble s) := by
  rw [spiGetToc, spiArm_eq _ hp, spiPreamble_disc, hd]

/-- Rules R158, R159: a track number out of range. -/
theorem spiGetToc_bounds {area : Bool} {size : BitVec 16} {s : State} {d : Disc} (hp : s.phase = .readAtaData)
    (hd : s.disc = some d) (h : tocReply d area = none) :
    spiGetToc area size s = raiseFault .bounds (spiPreamble s) := by
  simp only [spiGetToc, spiArm_eq _ hp, spiPreamble_disc, hd, h]

/-- Rules R158, R159: a reply, by its size. -/
theorem spiGetToc_reply {area : Bool} {size : BitVec 16} {s : State} {d : Disc} {reply : List Byte}
    (hp : s.phase = .readAtaData) (hd : s.disc = some d) (h : tocReply d area = some reply) :
    spiGetToc area size s = replySlice reply 0 size.toNat (spiPreamble s) := by
  simp only [spiGetToc, spiArm_eq _ hp, spiPreamble_disc, hd, h]

/-- Settles O36: the truncated reply, and its slots one by one. -/
theorem getTocArmsTheTocReply : Obligations.GetTocArmsTheTocReply := by
  intro area size s d toc hf hp hwf hd htoc hfirst hlast
  have hreply := tocReply_inRange htoc hfirst hlast
  obtain ⟨harmed, hoversize⟩ := exec_truncatedReply hwf (tocSlots_flatten_length d toc) (by decide)
    (exec_eq_next (i := .spiGetToc area size) hf nofun
      (spiGetToc_reply (s := { s with response := .none }) hp hd hreply))
  refine ⟨fun hsize => ?_, hoversize⟩
  obtain ⟨t, hexec, ht⟩ := harmed hsize
  refine ⟨t, _, hexec, ht, tocSlots_flatten_length d toc, fun n h1 h99 hge hle => ?_, fun n h1 h99 hout => ?_,
    ?_, ?_, ?_⟩
  · rw [tocSlot_entry (by omega), tocEntrySlot, if_pos (by omega), tocEntry_eq]
  · rw [tocSlot_entry (by omega), tocEntrySlot, if_neg (by omega), tocInvalid]
  · rw [← tocEnd_eq]
    exact tocSlot_tocSlots (by decide)
  · rw [← tocEnd_eq]
    exact tocSlot_tocSlots (by decide)
  · exact tocSlot_tocSlots (by decide)

/-! ### REQ_SES, in the order of its checks -/

/-- A session number up to the last one has an answer (rule R160). -/
theorem sessionQuery_inRange {d : Disc} {k : Nat} (hk : k ≤ d.numSessions) (h1 : 1 ≤ d.numSessions) :
    sessionQuery d k = some (if k = 0 then (d.numSessions, (Disc.getSession d (d.numSessions - 1)).leadoutFad)
      else ((Disc.getSession d (k - 1)).firstTrack.num, (Disc.getSession d (k - 1)).firstTrack.fad)) := by
  unfold sessionQuery
  by_cases h : k = 0
  · rw [if_pos h, if_pos h, if_neg (by omega)]
  · rw [if_neg h, if_neg h, if_neg (by omega)]

/-- A session number beyond the last one, and any of a disc without sessions, has none (rule R160). -/
theorem sessionQuery_outOfRange {d : Disc} {k : Nat} (h : d.numSessions < k ∨ d.numSessions = 0) :
    sessionQuery d k = none := by
  unfold sessionQuery
  by_cases hk : k = 0
  · rw [if_pos hk, if_pos (by omega)]
  · rw [if_neg hk, if_pos (by omega)]

/-- Rule R160: no disc. -/
theorem spiReqSes_noDisc {session size : Byte} {s : State} (hp : s.phase = .readAtaData) (hd : s.disc = none) :
    spiReqSes session size s = raiseFault .noDisc (spiPreamble s) := by
  rw [spiReqSes, spiArm_eq _ hp, spiPreamble_disc, hd]

/-- Rule R160: a session number out of range. -/
theorem spiReqSes_bounds {session size : Byte} {s : State} {d : Disc} (hp : s.phase = .readAtaData)
    (hd : s.disc = some d) (h : sessionQuery d session.toNat = none) :
    spiReqSes session size s = raiseFault .bounds (spiPreamble s) := by
  simp only [spiReqSes, spiArm_eq _ hp, spiPreamble_disc, hd, h]

/-- Rules R160, R161: a reply, by its size; its status is the one before the preamble. -/
theorem spiReqSes_reply {session size : Byte} {s : State} {d : Disc} {track fad : Nat} (hp : s.phase = .readAtaData)
    (hd : s.disc = some d) (h : sessionQuery d session.toNat = some (track, fad)) :
    spiReqSes session size s =
      replySlice (sessionReply s.driveStatus track fad) 0 size.toNat (spiPreamble s) := by
  simp only [spiReqSes, spiArm_eq _ hp, spiPreamble_disc, hd, h]
  rfl

/-- Settles O38: the truncated reply, its track and FAD as the session number selects them. -/
theorem reqSesArmsTheSessionReply : Obligations.ReqSesArmsTheSessionReply := by
  intro session size s d track fad hf hp hwf hd hk h1 htf
  have hquery : sessionQuery d session.toNat = some (track, fad) := htf ▸ sessionQuery_inRange hk h1
  refine exec_truncatedReply hwf rfl (by decide) (exec_eq_next hf nofun
    ((spiReqSes_reply (s := { s with response := .none }) hp hd hquery).trans ?_))
  rw [← nibbles_driveStatus]
  rfl

/-- Settles O37: each of the four requests fails the check before its size. -/
theorem tocAndSessionRequestsFaultWithoutAnAnswer : Obligations.TocAndSessionRequestsFaultWithoutAnAnswer := by
  intro s hf hp
  refine ⟨fun hd => ⟨fun area size => ?_, fun session size => ?_⟩,
    fun d hd => ⟨fun area size toc htoc hne h => ?_, fun session size h => ?_⟩⟩
  · exact exec_spiFaulted hf nofun (spiGetToc_noDisc (s := { s with response := .none }) hp hd)
  · exact exec_spiFaulted hf nofun (spiReqSes_noDisc (s := { s with response := .none }) hp hd)
  · exact exec_spiFaulted hf nofun
      (spiGetToc_bounds (s := { s with response := .none }) hp hd (tocReply_outOfRange htoc hne h))
  · exact exec_spiFaulted hf nofun
      (spiReqSes_bounds (s := { s with response := .none }) hp hd (sessionQuery_outOfRange h))

end Sys2Proof.Machine.Proofs
end

section
/-! SUPPORT. The packet commands that open a payload (spec 43_spi_commands.md rules R155, R166): SET_MODE's receipt, and
CD_READ's first refill on either path. -/

namespace Sys2Proof.Machine.Proofs

open Sys2Proof.Machine.Laws Sys2Proof.Claims

/-! ### SET_MODE, in the order of its checks -/

/-- Rules R155, R119: a range within the block arms the receipt. -/
theorem spiSetMode_fits {offset size : Byte} {s : State} (hp : s.phase = .readAtaData)
    (h : offset.toNat + size.toNat ≤ 32) :
    spiSetMode offset size s = spiRead offset.toNat size.toNat (spiPreamble s) := by
  rw [spiSetMode, spiArm_eq _ hp, if_neg (Nat.not_lt.mpr h)]

/-- Rule R155: a range beyond the block. -/
theorem spiSetMode_oversize {offset size : Byte} {s : State} (hp : s.phase = .readAtaData)
    (h : 32 < offset.toNat + size.toNat) : spiSetMode offset size s = raiseFault .oversize (spiPreamble s) := by
  rw [spiSetMode, spiArm_eq _ hp, if_pos h]

/-- Settles O39: what the receipt writes over its preamble, with its registers as masks. -/
theorem setModeArmsThePayloadReceipt : Obligations.SetModeArmsThePayloadReceipt := by
  intro offset size s hf hp
  have hint : putIo false (putCod false s.intreason) = s.intreason &&& 0xFFFC#16 :=
    (intreason_bits s.intreason false false).trans BitVec.or_zero
  refine ⟨fun h => ?_, fun h => ?_⟩
  · rw [← hint, ← request_after_spiPreamble_bits]
    refine exec_eq_next hf nofun ((spiSetMode_fits (s := { s with response := .none }) hp h).trans ?_)
    rw [spiPreamble_eq]
    rfl
  · exact exec_spiFaulted hf nofun (spiSetMode_oversize (s := { s with response := .none }) hp h)

/-! ### CD_READ -/

/-- CD_READ with FEATURES.DMA clear refills the PIO buffer from its fresh record (rules R166, R182). -/
theorem effect_pioCdRead {s : State} (msf : Bool) (fmt : BitVec 3) (mask : BitVec 4) (a b c : Byte)
    (count : BitVec 24) (hp : s.phase = .readAtaData) (hpio : s.featuresDma = false)
    (hdisc : DiscKeepsObligation s) : effect (.spiCdRead msf fmt mask a b c count) s =
      refillPio pioSectorBudget (withCdr ⟨false, fmt, mask, getFad a b c msf, count.toNat⟩ s) := by
  have hread : effect (.spiCdRead msf fmt mask a b c count) s =
      cdRead (withCdr ⟨s.featuresDma, fmt, mask, getFad a b c msf, count.toNat⟩ s) := by
    rw [effect, spiCdRead, spiArm_eq _ hp]
    rfl
  rw [hread, hpio]
  exact cdRead_pio rfl hdisc

/-- The start address, with minutes counted in frames (rule R67). -/
theorem getFad_eq (a b c : Byte) (msf : Bool) : getFad a b c msf =
    if msf then a.toNat * 4500 + b.toNat * 75 + c.toNat else a.toNat * 65536 + b.toNat * 256 + c.toNat := by
  rw [getFad, Nat.mul_assoc]

/-- Settles O40: the first refill by PIO, over the preamble. -/
theorem cdReadByPioArmsTheFirstBuffer : Obligations.CdReadByPioArmsTheFirstBuffer := by
  intro msf fmt mask a b c count s hf hp hpio hwf hdisc
  refine ⟨_, _, _, _, exec_eq_next hf nofun (effect_pioCdRead msf fmt mask a b c count hp hpio hdisc),
    getFad_eq a b c msf, rfl, readSectors_eq _ _ _ _ _, fun i => read_writeRange 0 i _ hwf, ?_⟩
  have hstatus : (((s.status &&& 0xFF37#16) ||| 0x0080#16) &&& 0xFF77#16) ||| 0x0008#16 =
      (s.status &&& 0xFF37#16) ||| 0x0008#16 := maskedWrite_maskedWrite _ _ _ _ _
  rw [refillPio_eq, withCdr, spiPreamble_eq, hstatus]
  rfl

/-- Settles O41: the first refill by DMA, over the preamble. -/
theorem cdReadByDmaFillsTheBufferSilently : Obligations.CdReadByDmaFillsTheBufferSilently := by
  intro msf fmt mask a b c count s hf hp hdma hwf hdisc
  refine ⟨_, _, _, _, exec_eq_next hf nofun (effect_dmaCdRead msf fmt mask a b c count hp hdma hdisc),
    getFad_eq a b c msf, rfl, readSectors_eq _ _ _ _ _, fun i => read_writeRange 0 i _ hwf, ?_⟩
  rw [refillDma, withCdr, spiPreamble_eq]
  rfl

end Sys2Proof.Machine.Proofs
end

section
/-! SUPPORT. What REQ_MODE returns after SET_MODE (spec 43_spi_commands.md rule R173): the payload word by word into the
staging buffer, its copy into the hardware-info block, and the range read back. -/

namespace Sys2Proof.Machine.Proofs

open Sys2Proof.Machine.Laws Sys2Proof.Claims

/-! ### Ranges of a buffer and of the hardware-info block -/

/-- A range read is the reads of its two parts. -/
theorem readRange_add (m : Memory) (a n k : Nat) :
    m.readRange a (n + k) = m.readRange a n ++ m.readRange (a + n) k := by
  simp only [readRange_eq_map, List.range_add, List.map_append, List.map_map, Function.comp_def, Nat.add_assoc]

/-- A block copied in behind what a buffer holds is read back behind it. -/
theorem readRange_writeRange_append {m : Memory} (a : Nat) (bytes : List Byte) (hm : m.wf = true) :
    (m.writeRange a bytes).readRange 0 (a + bytes.length) = m.readRange 0 a ++ bytes := by
  have hbelow : (m.writeRange a bytes).readRange 0 a = m.readRange 0 a := readRange_congr fun k hk => by
    rw [read_writeRange a _ bytes hm, if_neg (by omega)]
  rw [readRange_add, hbelow, Nat.zero_add, readRange_writeRange a bytes hm]

/-- A byte of the hardware-info block after a copy (rule R117). -/
theorem getElem_hwInfoWrite (hw : Vector Byte 32) (offset : Nat) (bytes : List Byte) (i : Nat) (hi : i < 32) :
    (hwInfoWrite hw offset bytes)[i] =
      if offset ≤ i ∧ i < offset + bytes.length then bytes.getD (i - offset) 0 else hw[i] := by
  rw [hwInfoWrite, Vector.getElem_ofFn]
  rfl

/-- A range copied into the hardware-info block is its slice there (rules R117, R172, R173). -/
theorem slice_hwInfoWrite (hw : Vector Byte 32) {offset : Nat} {bytes : List Byte} (h : offset + bytes.length ≤ 32) :
    slice (hwInfoWrite hw offset bytes).toList offset bytes.length = bytes := by
  refine List.ext_getElem (slice_length (by rwa [Vector.length_toList])) fun k _ hk => ?_
  simp only [slice, List.getElem_take, List.getElem_drop, Vector.getElem_toList]
  rw [getElem_hwInfoWrite, if_pos (by omega), Nat.add_sub_cancel_left, List.getD_eq_getElem _ _ hk]

/-! ### The words of a payload -/

theorem lowByte_word (lo hi : Byte) : lowByte (BitVec.ofNat 16 (hi.toNat * 256 + lo.toNat)) = lo := by
  rw [← append_eq_ofNat]
  exact BitVec.extractLsb'_append_eq_right

theorem highByte_word (lo hi : Byte) : highByte (BitVec.ofNat 16 (hi.toNat * 256 + lo.toNat)) = hi := by
  rw [← append_eq_ofNat]
  exact BitVec.extractLsb'_append_eq_left

/-- SET_MODE's phase over `hw` with the bytes `received` of its payload in the buffer (rules R115, R119). -/
structure PayloadReceived (hw : Vector Byte 32) (offset size : Nat) (received : List Byte) (s : State) : Prop where
  faulted : s.faulted = none
  phase : s.phase = .readSpiData
  canonical : s.pioBuf.wf = true
  hwInfo : s.hwInfo = hw
  offset : s.pioOffset = offset
  size : s.pioSize = size
  head : s.pioHead = received.length
  stored : s.pioBuf.readRange 0 received.length = received

/-- A word of the payload adds its two bytes, the low one first (rule R43). -/
theorem PayloadReceived.afterWord {hw : Vector Byte 32} {offset size : Nat} {received : List Byte} {s : State}
    (h : PayloadReceived hw offset size received s) (lo hi : Byte) :
    PayloadReceived hw offset size (received ++ [lo, hi])
      (storeWord (BitVec.ofNat 16 (hi.toNat * 256 + lo.toNat)) { s with response := .none }) where
  faulted := h.faulted
  phase := h.phase
  canonical := writeRange_wf _ _ h.canonical
  hwInfo := h.hwInfo
  offset := h.offset
  size := h.size
  head := by simp [h.head]
  stored := by
    rw [storeWord_pioBuf, lowByte_word, highByte_word, h.head, List.length_append]
    exact (readRange_writeRange_append _ _ h.canonical).trans (congrArg (· ++ [lo, hi]) h.stored)

/-- A word below the payload's size is stored and no more (rules R83, R115). -/
theorem exec_wrData_below (v : Reg) {s : State} (hf : s.faulted = none) (hp : s.phase = .readSpiData)
    (hb : s.pioHead + 2 < s.pioSize) : exec (.wrData v) s = .next (storeWord v { s with response := .none }) := by
  have hlegal : handles s.phase .pioWrite = true := (pioWrite_legal _).mpr (.inr hp)
  have h12 : ¬ (s.phase = .readAtaData ∧ s.pioHead + 2 = 12) := by rw [hp]; nofun
  exact exec_eq_next hf nofun (.trans (wrData_legal v hb.le hlegal) (pioWrite_below h12 fun h => hb.ne h.2))

/-- The last word of a payload is stored, and the payload copied (rules R115, R117). -/
theorem PayloadReceived.exec_lastWord {hw : Vector Byte 32} {offset size : Nat} {received : List Byte} {s : State}
    (h : PayloadReceived hw offset size received s) (lo hi : Byte) (hend : received.length + 2 = size)
    (hfits : offset + size ≤ 32) :
    ∃ t, exec (.wrData (BitVec.ofNat 16 (hi.toNat * 256 + lo.toNat))) s = .next t ∧ t.faulted = none ∧
      t.phase = .readAtaCmd ∧ t.hwInfo = hwInfoWrite hw offset (received ++ [lo, hi]) := by
  have hlast := h.afterWord lo hi
  have hhead : s.pioHead + 2 = s.pioSize := by rw [h.head, h.size, hend]
  have hbytes := hlast.stored
  rw [List.length_append, show received.length + [lo, hi].length = size from hend, ← hlast.size] at hbytes
  have hrange := hfits
  rw [← hlast.offset, ← hlast.size] at hrange
  refine ⟨_, exec_eq_next h.faulted nofun
    ((wrData_completes_payload (s := { s with response := .none }) _ h.phase hhead).trans (spiData_fits hrange)),
    hlast.faulted, rfl, ?_⟩
  rw [spiEnd_hwInfo, hlast.hwInfo, hlast.offset, hbytes]

theorem safeRun_cons {i : Instr} {rest : List Instr} {s t u : State} (h : exec i s = .next t)
    (hrun : SafeRun rest t u) : SafeRun (i :: rest) s u :=
  ⟨(perform_cons h rest).trans hrun.1, hrun.2⟩

/-- The words left of a payload run to its copy into the hardware-info block (rule R117). -/
theorem PayloadReceived.safeRun {hw : Vector Byte 32} {offset size : Nat} {received bytes : List Byte} {s : State}
    (h : PayloadReceived hw offset size received s) (hsize : received.length + bytes.length = size)
    (hpos : 0 < bytes.length) (heven : bytes.length % 2 = 0) (hfits : offset + size ≤ 32) :
    ∃ t, SafeRun ((dataWords bytes).map .wrData) s t ∧ t.phase = .readAtaCmd ∧
      t.hwInfo = hwInfoWrite hw offset (received ++ bytes) := by
  induction bytes using dataWords.induct generalizing received s with
  | case1 lo hi rest ih =>
    rw [List.length_cons, List.length_cons] at hsize heven
    cases rest with
    | nil =>
      obtain ⟨t, hexec, hf, hphase, hcopied⟩ := h.exec_lastWord lo hi hsize hfits
      exact ⟨t, safeRun_cons hexec ⟨rfl, hf⟩, hphase, hcopied⟩
    | cons b rest =>
      have hbelow : s.pioHead + 2 < s.pioSize := by
        rw [h.head, h.size, ← hsize, List.length_cons]
        omega
      have hleft : (received ++ [lo, hi]).length + (b :: rest).length = size := by
        rw [List.length_append, ← hsize]
        simp only [List.length_cons, List.length_nil]
        omega
      obtain ⟨t, hrun, hphase, hcopied⟩ := ih (h.afterWord lo hi) hleft (Nat.succ_pos _) (by omega)
      rw [List.append_assoc] at hcopied
      exact ⟨t, safeRun_cons (exec_wrData_below _ h.faulted h.phase hbelow) hrun, hphase, hcopied⟩
  | case2 bytes hshort =>
    match bytes with
    | [] => cases hpos
    | [_] => cases heven
    | lo :: hi :: rest => exact absurd rfl (hshort lo hi rest)

/-- Settles O58: the payload's words run to its copy, which leaves the bytes outside the range, and whose slice is the
payload. -/
theorem setModeThenReqModeReturnsTheBytesWritten : Obligations.SetModeThenReqModeReturnsTheBytesWritten := by
  intro offset size bytes s hf hp hwf hlen hpos heven hfits
  rw [← hlen] at hpos heven
  have hset := exec_eq_next (i := .spiSetMode offset size) hf nofun
    (spiSetMode_fits (s := { s with response := .none }) hp hfits)
  have harmed : PayloadReceived s.hwInfo offset.toNat size.toNat []
      (spiRead offset.toNat size.toNat (spiPreamble { s with response := .none })) :=
    ⟨hf, rfl, hwf, rfl, rfl, rfl, rfl, rfl⟩
  obtain ⟨t, hrun, hphase, hcopied⟩ := harmed.safeRun ((Nat.zero_add _).trans hlen) hpos heven hfits
  rw [List.nil_append] at hcopied
  refine ⟨t, safeRun_cons hset hrun, hphase, fun i hi => ?_, fun u hu huf hup huwf => ?_⟩
  · rw [hcopied, Fin.getElem_fin, getElem_hwInfoWrite]
    exact if_neg (hlen ▸ hi)
  · obtain ⟨w, hexec, hw⟩ := (reqModeArmsTheHwInfoSlice offset size u huf hup huwf).1 hfits
    have hslice : slice u.hwInfo.toList offset.toNat size.toNat = bytes := by
      rw [hu, hcopied, ← hlen]
      exact slice_hwInfoWrite _ (hlen ▸ hfits)
    exact ⟨w, hexec, hslice ▸ hw⟩

end Sys2Proof.Machine.Proofs
end

section
/-! SUPPORT. How a DMA CD_READ runs to its end (spec 44_cd_read_streaming.md rules R181, R184, R188): each request for
a whole buffer drains it, which refills it while sectors are left and completes the command once none is. -/

namespace Sys2Proof.Machine.Proofs

open Sys2Proof.Machine.Laws Sys2Proof.Claims

/-- Every host operation and ATA command keeps the invariant. -/
theorem exec_inv {i : Instr} {s t : State} (hi : i.isSpi = false) (hs : s.Inv) (h : exec i s = .next t) : t.Inv := by
  obtain ⟨hf, hd, hcase⟩ := exec_cases h
  obtain ⟨hcanon, hsettled⟩ := inv_congr hs s.pending .none
  exact ⟨effectCase_canonical hcase hcanon, effectCase_settled hcase (hsettled hf) hi hd⟩

/-- Runs compose. -/
theorem safeRun_append {ops rest : List Instr} {s t u : State} (h : SafeRun ops s t) (hrun : SafeRun rest t u) :
    SafeRun (ops ++ rest) s u := by
  induction ops generalizing s with
  | nil =>
    obtain ⟨hst, -⟩ := h
    cases hst
    exact hrun
  | cons i ops ih =>
    obtain ⟨hops, hf⟩ := h
    rw [perform] at hops
    cases hexec : exec i s with
    | next v =>
      rw [hexec] at hops
      exact safeRun_cons hexec (ih ⟨hops, hf⟩)
    | fault c => rw [hexec] at hops; cases hops
    | refused w => rw [hexec] at hops; cases hops

/-- A DMA CD_READ between two requests, with `left` sectors yet to be read, the last of them before `endFad`; the
interrupt line is at `line`. -/
structure DmaStreaming (line : Bool) (endFad left : Nat) (s : State) : Prop where
  inv : s.Inv
  faulted : s.faulted = none
  phase : s.phase = .writeDmaData
  irq : s.irq = line
  remaining : s.cdr.remaining = left
  fad : s.cdr.fad + left = endFad

/-- With sectors left, a request for a whole buffer is one refill (rules R181, R184, R189). -/
theorem DmaStreaming.exec_refill {line : Bool} {endFad left : Nat} {s : State}
    (h : DmaStreaming line endFad left s) (hr : 0 < left) :
    ∃ t, exec (.dmard 65536) s = .next t ∧ DmaStreaming line endFad (left - dmaSectorBudget) t := by
  obtain ⟨⟨-, hwf⟩, hsettled⟩ := h.inv
  obtain ⟨hhead, hsize⟩ := (hsettled h.faulted).dmaCursor
  obtain ⟨hdma, -⟩ := (hsettled h.faulted).stream
  obtain ⟨t, n, bytes, hexec, hn, -, -, ht⟩ := drainingDmardRefillsSilently 65536 s h.faulted h.phase (by omega) hhead
    (by omega) (h.remaining ▸ hr) (hdma h.phase) hwf (hsettled h.faulted).disc
  have hcdr : t.cdr = s.cdr.advance n := congrArg State.cdr ht
  have hadvanced : left - n = left - dmaSectorBudget := by
    rw [hn, h.remaining, dmaSectorBudget]
    omega
  have hle : n ≤ left := by
    rw [hn, h.remaining]
    exact Nat.min_le_left _ _
  refine ⟨t, hexec, exec_inv rfl h.inv hexec, (congrArg State.faulted ht).trans h.faulted,
    (congrArg State.phase ht).trans h.phase, (congrArg State.irq ht).trans h.irq, ?_, ?_⟩
  · rw [hcdr, ← hadvanced, ← h.remaining]
    rfl
  · have hfad : t.cdr.fad = s.cdr.fad + n := congrArg Cdr.fad hcdr
    rw [hfad, ← hadvanced, ← h.fad]
    omega

/-- With no sectors left, a request for a whole buffer completes the command (rules R120, R184). -/
theorem DmaStreaming.exec_last {line : Bool} {endFad : Nat} {s : State} (h : DmaStreaming line endFad 0 s) :
    ∃ t, exec (.dmard 65536) s = .next t ∧ t.faulted = none ∧ t.phase = .readAtaCmd ∧ t.irq = true ∧
      t.cdr.remaining = 0 ∧ t.cdr.fad = endFad := by
  obtain ⟨hhead, hsize⟩ := (h.inv.2 h.faulted).dmaCursor
  have hexec := drainingDmardCompletesTheCommand 65536 s h.faulted h.phase (by omega) hhead (by omega) h.remaining
  exact ⟨_, hexec, h.faulted, rfl, rfl, h.remaining, h.fad⟩

/-- `j` requests for a whole buffer are `j` refills, when sectors were left before the last of them (rule R188). -/
theorem DmaStreaming.run_refills {line : Bool} {endFad left : Nat} {s : State}
    (h : DmaStreaming line endFad left s) (j : Nat) (hj : j * dmaSectorBudget < left + dmaSectorBudget) :
    ∃ t, SafeRun (List.replicate j (.dmard 65536)) s t ∧
      DmaStreaming line endFad (left - j * dmaSectorBudget) t := by
  induction j generalizing left s with
  | zero => exact ⟨s, ⟨rfl, h.faulted⟩, by rwa [Nat.zero_mul]⟩
  | succ j ih =>
    rw [Nat.succ_mul] at hj ⊢
    obtain ⟨t, hexec, ht⟩ := h.exec_refill (by omega)
    obtain ⟨u, hrun, hu⟩ := ih ht (by omega)
    refine ⟨u, safeRun_cons hexec hrun, ?_⟩
    rwa [Nat.sub_sub, Nat.add_comm] at hu

/-- Settles O59: the refills take a budget's worth of sectors each until none is left, and the next request completes. -/
theorem dmaReadEndsAfterAllItsRefills : Obligations.DmaReadEndsAfterAllItsRefills := by
  intro s k hinv hf hp hk
  change k = (s.cdr.remaining + dmaSectorBudget - 1) / dmaSectorBudget at hk
  have hbudget := one_le_dmaSectorBudget
  have hstart : DmaStreaming s.irq (s.cdr.fad + s.cdr.remaining) s.cdr.remaining s := ⟨hinv, hf, hp, rfl, rfl, rfl⟩
  have hrefills : ∀ j, j ≤ k → j * dmaSectorBudget < s.cdr.remaining + dmaSectorBudget := fun j hj => by
    have hle := (Nat.le_div_iff_mul_le hbudget).mp (hk ▸ hj)
    omega
  have hall : s.cdr.remaining - k * dmaSectorBudget = 0 := by
    have hlt := Nat.lt_div_mul_add (a := s.cdr.remaining + dmaSectorBudget - 1) hbudget
    rw [← hk] at hlt
    omega
  refine ⟨fun j hj => ?_, ?_⟩
  · obtain ⟨u, hrun, hu⟩ := hstart.run_refills j (hrefills j hj)
    exact ⟨u, hrun, hu.phase, hu.irq⟩
  · obtain ⟨u, hrun, hu⟩ := hstart.run_refills k (hrefills k le_rfl)
    obtain ⟨t, hexec, hdone, hend⟩ := (hall ▸ hu).exec_last
    rw [List.replicate_succ']
    exact ⟨t, safeRun_append hrun (safeRun_cons hexec ⟨rfl, hdone⟩), hend⟩

end Sys2Proof.Machine.Proofs
end

section
/-! SUPPORT. Faults and the interrupt line (spec 60_exceptions.md rules R201, R205 to R207, R210): every fault stands
over a state that differs from the one before in nothing the host is told, and every instruction that moves `irq`
is RD STATUS or raises it where a phase begins or a command completes. -/

namespace Sys2Proof.Machine.Proofs

open Sys2Proof.Machine.Laws

/-! ### What a fault leaves -/

/-- From `s` to `u` the host has been told nothing: `irq` is as before, CHECK and ABRT are not newly set. -/
def Untold (s u : State) : Prop :=
  u.irq = s.irq ∧ (u.check = true → s.check = true) ∧ (u.abrt = true → s.abrt = true)

/-- `t` is a fault over a state that has told the host nothing since `s` (rule R201). -/
def UntoldFault (s t : State) : Prop := ∃ c u, t = raiseFault c u ∧ Untold s u

/-- A fault over a state that agrees with `s` on `irq` and the two error bits. -/
theorem untoldFault_of_eq (c : Cause) {s u : State} (hirq : u.irq = s.irq) (hcheck : u.check = s.check)
    (habrt : u.abrt = s.abrt) : UntoldFault s (raiseFault c u) :=
  ⟨c, u, rfl, hirq, hcheck.symm.trans, habrt.symm.trans⟩

/-- The ATA preamble clears the two error bits (rule R130). -/
theorem untoldFault_ataPreamble (c : Cause) (s : State) : UntoldFault s (raiseFault c (ataPreamble s)) := by
  have habrt : (ataPreamble s).abrt = false := by simp [State.abrt]
  refine ⟨c, _, rfl, rfl, fun h => ?_, fun h => ?_⟩
  · cases (ataPreamble_check s).symm.trans h
  · cases habrt.symm.trans h

theorem drainCase_faulted {s t : State} (h : DrainCase s t) (hs : s.faulted = none) (ht : t.faulted ≠ none) :
    UntoldFault s t := by
  cases h with
  | fault => exact untoldFault_of_eq _ rfl rfl rfl
  | _ => exact absurd hs ht

theorem spiCase_faulted {s t : State} (h : SpiCase s t) (hs : s.faulted = none) (ht : t.faulted ≠ none) :
    UntoldFault s t := by
  have hcheck := spiPreamble_check s
  cases h with
  | fault | readFault => exact untoldFault_of_eq _ rfl hcheck rfl
  | _ => exact absurd hs ht

/-- A drain that faults leaves its read unanswered (rule R201). -/
theorem answer_drainCase_faulted {r : Response} {s t : State} (h : DrainCase s t) (hs : s.faulted = none)
    (ht : (answer r t).faulted ≠ none) : UntoldFault s (answer r t) := by
  rcases answer_cases r t with ⟨hf, e⟩ | ⟨hf, e⟩ <;> rw [e] at ht ⊢
  · exact absurd hf ht
  · exact drainCase_faulted h hs ht

/-- An instruction that leaves an unfaulted block faulted has told the host nothing. -/
theorem effectCase_faulted {i : Instr} {s t : State} (h : EffectCase i s t) (hs : s.faulted = none)
    (ht : t.faulted ≠ none) : UntoldFault s t := by
  cases h with
  | ataFault c => exact untoldFault_ataPreamble c s
  | fault | readFault | writeFault => exact untoldFault_of_eq _ rfl rfl rfl
  | packetWord v hi hp hh hb hcase => exact (spiCase_faulted hcase hs ht :)
  | spi hi hp hcase => exact spiCase_faulted hcase hs ht
  | readData hi hb hp r hcase => exact (answer_drainCase_faulted hcase hs ht :)
  | dma n hi hp hn r hcase => exact (answer_drainCase_faulted hcase hs ht :)
  | packet => exact absurd hs (by rwa [ataPacketCmd_eq] at ht)
  | _ => exact absurd hs ht

/-- Settles O45: the faulted state is a fault over a state that has told the host nothing. -/
theorem aFaultIsNotReportedToTheHost : Obligations.AFaultIsNotReportedToTheHost := by
  intro i s t h ht
  obtain ⟨hs, -, hcase⟩ := exec_cases h
  obtain ⟨c, u, rfl, hirq, hcheck, habrt⟩ := effectCase_faulted hcase hs ht
  exact ⟨hirq, rfl, hcheck, habrt⟩

/-! ### Phase boundaries and the registers that name them -/

/-- The three places at which the host is interrupted, as the registers show them (rules R205, R210). -/
def AtPhaseBoundary (t : State) : Prop :=
  (t.phase = .readAtaCmd ∧ t.cod = true ∧ t.io = true ∧ t.drdy = true ∧ t.bsy = false ∧ t.drq = false) ∨
  (t.phase = .writeSpiData ∧ t.cod = false ∧ t.io = true ∧ t.drq = true ∧ t.bsy = false) ∨
  (t.phase = .readSpiData ∧ t.cod = false ∧ t.io = false ∧ t.drq = true ∧ t.bsy = false)

/-- INTREASON's two fields read back once both are written. -/
theorem cod_io_of_intreason (cod io : Bool) (r : Reg) :
    (putIo io (putCod cod r)).getLsbD 0 = cod ∧ (putIo io (putCod cod r)).getLsbD 1 = io :=
  ⟨(getLsbD_putBit _ 1 0 io (by omega)).trans (getLsbD_putBit r 0 0 cod (by omega)),
    getLsbD_putBit _ 1 1 io (by omega)⟩

/-- An arming sets DRQ and clears BSY (rules R118, R119, R182). -/
theorem drq_bsy_of_request (r : Reg) :
    (putBsy false (putDrq true r)).getLsbD 3 = true ∧ (putBsy false (putDrq true r)).getLsbD 7 = false := by
  simp [request_bits]

/-- The end of an ATA command and the soft reset set DRDY, clear BSY and leave DRQ (rules R121, R138). -/
theorem drdy_bsy_drq_of_ready (r : Reg) :
    (putBsy false (putDrdy true r)).getLsbD 6 = true ∧ (putBsy false (putDrdy true r)).getLsbD 7 = false ∧
      (putBsy false (putDrdy true r)).getLsbD 3 = r.getLsbD 3 := by
  simp [ready_bits]

/-- The end of an SPI command sets DRDY and clears BSY and DRQ (rule R120). -/
theorem drdy_bsy_drq_of_spiEnd (r : Reg) :
    (putDrq false (putBsy false (putDrdy true r))).getLsbD 6 = true ∧
      (putDrq false (putBsy false (putDrdy true r))).getLsbD 7 = false ∧
      (putDrq false (putBsy false (putDrdy true r))).getLsbD 3 = false := by
  simp [spiEnd_bits]

/-- The ATA preamble clears DRQ (rule R130). -/
theorem ataPreamble_drq (s : State) : (ataPreamble s).drq = false := by
  simp [State.drq, ataPreamble_bits]

/-- `ata_end` ends at a boundary once DRQ is clear, which it does not write itself (rule R121). -/
theorem ataEnd_boundary {s : State} (h : s.drq = false) : AtPhaseBoundary (ataEnd s) := by
  obtain ⟨hcod, hio⟩ := cod_io_of_intreason true true s.intreason
  obtain ⟨hdrdy, hbsy, hdrq⟩ := drdy_bsy_drq_of_ready s.status
  exact .inl ⟨rfl, hcod, hio, hdrdy, hbsy, hdrq.trans h⟩

/-- `spi_end` ends at a boundary (rule R120). -/
theorem spiEnd_boundary (s : State) : AtPhaseBoundary (spiEnd s) := by
  obtain ⟨hcod, hio⟩ := cod_io_of_intreason true true s.intreason
  exact .inl ⟨rfl, hcod, hio, drdy_bsy_drq_of_spiEnd s.status⟩

/-- A reply begins at a boundary (rule R118). -/
theorem armPioOut_boundary (payload : List Byte) (size : Nat) (s : State) :
    AtPhaseBoundary (armPioOut payload size s) := by
  obtain ⟨hcod, hio⟩ := cod_io_of_intreason false true s.intreason
  exact .inr (.inl ⟨rfl, hcod, hio, drq_bsy_of_request s.status⟩)

/-- A PIO refill begins at a boundary (rule R182). -/
theorem refillPio_boundary (budget : Nat) (s : State) : AtPhaseBoundary (refillPio budget s) := by
  obtain ⟨hcod, hio⟩ := cod_io_of_intreason false true s.intreason
  exact .inr (.inl ⟨rfl, hcod, hio, drq_bsy_of_request s.status⟩)

/-- A payload receipt begins at a boundary (rule R119). -/
theorem spiRead_boundary (offset size : Nat) (s : State) : AtPhaseBoundary (spiRead offset size s) := by
  obtain ⟨hcod, hio⟩ := cod_io_of_intreason false false s.intreason
  exact .inr (.inr ⟨rfl, hcod, hio, drq_bsy_of_request s.status⟩)

/-! ### What moves the interrupt line -/

/-- The interrupt line is up, on an unfaulted block at a phase boundary. -/
def RaisedAtBoundary (t : State) : Prop := t.irq = true ∧ t.faulted = none ∧ AtPhaseBoundary t

/-- The instructions that may raise `irq`: PACKET_CMD and BIND are none of them (rules R133, R99). -/
def MayRaise (i : Instr) : Prop := i ≠ .ataPacketCmd ∧ ∀ d, i ≠ .bind d

theorem drainCase_irq {s t : State} (h : DrainCase s t) (hs : s.faulted = none) :
    t.irq = s.irq ∨ RaisedAtBoundary t := by
  cases h with
  | finish => exact .inr ⟨rfl, hs, spiEnd_boundary s⟩
  | pio => exact .inr ⟨rfl, hs, refillPio_boundary _ s⟩
  | stay | dma | fault => exact .inl rfl

theorem spiCase_irq {s t : State} (h : SpiCase s t) (hs : s.faulted = none) :
    t.irq = s.irq ∨ RaisedAtBoundary t := by
  cases h with
  | finish => exact .inr ⟨rfl, hs, spiEnd_boundary _⟩
  | reply => exact .inr ⟨rfl, hs, armPioOut_boundary _ _ _⟩
  | payload => exact .inr ⟨rfl, hs, spiRead_boundary _ _ _⟩
  | readPio => exact .inr ⟨rfl, hs, refillPio_boundary _ _⟩
  | fault | readDma | readFault => exact .inl rfl

/-- A read that advances a cursor moves the line as its drain does. -/
theorem answer_drainCase_irq (r : Response) {s t : State} (h : DrainCase s t) (hs : s.faulted = none) :
    (answer r t).irq = s.irq ∨ RaisedAtBoundary (answer r t) := by
  obtain ⟨r', e⟩ := answer_eq_update r t
  rw [e]
  exact (drainCase_irq h hs :)

/-- An ATA command other than PACKET_CMD may raise `irq`, by whichever of its two levels it is given. -/
theorem mayRaise_of_isAta {i j : Instr} {c : Byte} (hi : IsAta i j c) (hj : MayRaise j) : MayRaise i := by
  obtain rfl | ⟨v, rfl, -⟩ := hi
  · exact hj
  · exact ⟨nofun, nofun⟩

theorem mayRaise_of_isSpi {i : Instr} (hi : i.isSpi = true) : MayRaise i :=
  ⟨fun h => absurd (h ▸ hi) (by decide), ne_bind_of_isSpi hi⟩

/-- An instruction clears the line as RD STATUS, leaves it, or raises it at a phase boundary. -/
theorem effectCase_irq {i : Instr} {s t : State} (h : EffectCase i s t) (hs : s.faulted = none) :
    (i = .rdStatus ∧ t.irq = false) ∨ t.irq = s.irq ∨ (MayRaise i ∧ RaisedAtBoundary t) := by
  have hdrq := ataPreamble_drq s
  cases h with
  | status hi r => exact .inl ⟨hi, rfl⟩
  | nop hi =>
    refine .inr (.inr ⟨mayRaise_of_isAta hi ⟨nofun, nofun⟩, rfl, hs, ataEnd_boundary ?_⟩)
    exact (getLsbD_putBit _ 0 3 true (by omega)).trans hdrq
  | softReset hi =>
    refine .inr (.inr ⟨mayRaise_of_isAta hi ⟨nofun, nofun⟩, rfl, hs, ataEnd_boundary ?_⟩)
    obtain ⟨-, -, hkeep⟩ := drdy_bsy_drq_of_ready (ataPreamble s).status
    exact hkeep.trans hdrq
  | setFeatures hi => exact .inr (.inr ⟨mayRaise_of_isAta hi ⟨nofun, nofun⟩, rfl, hs, ataEnd_boundary hdrq⟩)
  | payload v hi => exact .inr (.inr ⟨hi ▸ ⟨nofun, nofun⟩, rfl, hs, spiEnd_boundary _⟩)
  | packetWord v hi hp hh hb hcase =>
    exact .inr ((spiCase_irq hcase hs).imp_right (⟨hi ▸ ⟨nofun, nofun⟩, ·⟩))
  | spi hi hp hcase => exact .inr ((spiCase_irq hcase hs).imp_right (⟨mayRaise_of_isSpi hi, ·⟩))
  | readData hi hb hp r hcase =>
    exact .inr ((answer_drainCase_irq r hcase hs).imp_right (⟨hi ▸ ⟨nofun, nofun⟩, ·⟩))
  | dma n hi hp hn r hcase =>
    exact .inr ((answer_drainCase_irq r hcase hs).imp_right (⟨hi ▸ ⟨nofun, nofun⟩, ·⟩))
  | packet => exact .inr (.inl (by rw [ataPacketCmd_eq]; rfl))
  | _ => exact .inr (.inl rfl)

/-- Settles O46: a line that was up and is down was neither left nor raised. -/
theorem onlyRdStatusClearsIrq : Obligations.OnlyRdStatusClearsIrq := by
  intro i s t h hup hdown
  obtain ⟨hs, -, hcase⟩ := exec_cases h
  rcases effectCase_irq hcase hs with ⟨hi, -⟩ | hkeep | ⟨-, hraised, -⟩
  · exact hi
  · cases hdown.symm.trans (hkeep.trans hup)
  · cases hdown.symm.trans hraised

/-- Settles O47: a line that was down and is up was neither left nor cleared. -/
theorem irqIsRaisedOnlyAtPhaseBoundaries : Obligations.IrqIsRaisedOnlyAtPhaseBoundaries := by
  intro i s t h hdown hup
  obtain ⟨hs, -, hcase⟩ := exec_cases h
  rcases effectCase_irq hcase hs with ⟨-, hclear⟩ | hkeep | ⟨⟨hpacket, hbind⟩, -, hf, hboundary⟩
  · cases hup.symm.trans hclear
  · cases hup.symm.trans (hkeep.trans hdown)
  · exact ⟨hf, hpacket, hbind, hboundary⟩

end Sys2Proof.Machine.Proofs
end

section
/-! SUPPORT. BYTECOUNT informs, it does not control (spec 70_reset_and_hazards.md rule R240, 10_state.md rule R15): an
operation built from updates and choices that never look at BYTECOUNT does the same whatever it holds. -/

namespace Sys2Proof.Machine.Proofs

open Sys2Proof.Machine.Laws Sys2Proof.Claims

/-- `s` with another value of BYTECOUNT. -/
def withByteCount (b : Reg) (s : State) : State := { s with byteCount := b }

@[simp] theorem withByteCount_disc (b : Reg) (s : State) : (withByteCount b s).disc = s.disc := rfl
@[simp] theorem withByteCount_driveStatus (b : Reg) (s : State) :
    (withByteCount b s).driveStatus = s.driveStatus := rfl

/-- From two states that differ in BYTECOUNT at most, `f` leads to two states that differ in BYTECOUNT at most. -/
def IgnoresByteCount (f : State → State) : Prop :=
  ∀ s b, ∃ c, f (withByteCount b s) = withByteCount c (f s)

/-! ### Updates, choices and what they are combined from -/

theorem ignoresByteCount_comp {f g : State → State} (hf : IgnoresByteCount f) (hg : IgnoresByteCount g) :
    IgnoresByteCount fun s => f (g s) := by
  intro s b
  obtain ⟨c, hc⟩ := hg s b
  obtain ⟨d, hd⟩ := hf (g s) c
  exact ⟨d, (congrArg f hc).trans hd⟩

/-- An operation that works with a value it reads from the other fields. -/
theorem ignoresByteCount_read {α : Type} {read : State → α} (hread : ∀ b s, read (withByteCount b s) = read s)
    {f : α → State → State} (hf : ∀ a, IgnoresByteCount (f a)) : IgnoresByteCount fun s => f (read s) s := by
  intro s b
  obtain ⟨c, hc⟩ := hf (read s) s b
  exact ⟨c, by simpa only [hread] using hc⟩

/-- A choice made by the other fields. -/
theorem ignoresByteCount_ite {p : State → Prop} [DecidablePred p] (hp : ∀ b s, p (withByteCount b s) ↔ p s)
    {f g : State → State} (hf : IgnoresByteCount f) (hg : IgnoresByteCount g) :
    IgnoresByteCount fun s => if p s then f s else g s := by
  intro s b
  by_cases h : p s
  · simpa only [if_pos h, if_pos ((hp b s).mpr h)] using hf s b
  · simpa only [if_neg h, if_neg (mt (hp b s).mp h)] using hg s b

/-- The operation that does nothing. -/
theorem ignoresByteCount_id : IgnoresByteCount fun s => s := fun _ b => ⟨b, rfl⟩

theorem ignoresByteCount_raiseFault (c : Cause) : IgnoresByteCount (raiseFault c) := fun _ _ => ⟨_, rfl⟩

/-- A check on the other fields that faults. -/
theorem ignoresByteCount_guard {p : State → Prop} [DecidablePred p] (hp : ∀ b s, p (withByteCount b s) ↔ p s)
    {c : Cause} {f : State → State} (hf : IgnoresByteCount f) :
    IgnoresByteCount fun s => if p s then raiseFault c s else f s :=
  ignoresByteCount_ite hp (ignoresByteCount_raiseFault c) hf

theorem ignoresByteCount_spiEnd : IgnoresByteCount spiEnd := fun _ _ => ⟨_, rfl⟩

theorem ignoresByteCount_driveStatusEnd (v : BitVec 4) : IgnoresByteCount (driveStatusEnd v) := fun _ _ => ⟨_, rfl⟩

theorem ignoresByteCount_spiRead (offset size : Nat) : IgnoresByteCount (spiRead offset size) := fun _ _ => ⟨_, rfl⟩

theorem ignoresByteCount_armPioOut (payload : List Byte) (size : Nat) : IgnoresByteCount (armPioOut payload size) :=
  fun _ _ => ⟨_, rfl⟩

theorem ignoresByteCount_ataEnd : IgnoresByteCount ataEnd := fun _ _ => ⟨_, rfl⟩

theorem ignoresByteCount_answer (r : Response) : IgnoresByteCount (answer r) := by
  intro s b
  cases hf : s.faulted with
  | none =>
    rw [answer_ready r hf, answer_ready r (s := withByteCount b s) hf]
    exact ⟨b, rfl⟩
  | some c =>
    rw [answer_faulted r hf, answer_faulted r (s := withByteCount b s) hf]
    exact ⟨b, rfl⟩

/-- Which events are legal is the phase's matter (rule R112). -/
theorem ignoresByteCount_post (e : Event) {f : State → State} (hf : IgnoresByteCount f) :
    IgnoresByteCount (post e f) :=
  ignoresByteCount_ite (p := fun s => handles s.phase e = true) (fun _ _ => Iff.rfl) hf
    (ignoresByteCount_raiseFault _)

theorem ignoresByteCount_ataArm {arm : State → State} (h : IgnoresByteCount arm) : IgnoresByteCount (ataArm arm) :=
  ignoresByteCount_post _ (ignoresByteCount_comp h fun _ _ => ⟨_, rfl⟩)

theorem ignoresByteCount_spiArm {arm : State → State} (h : IgnoresByteCount arm) : IgnoresByteCount (spiArm arm) :=
  ignoresByteCount_post _ (ignoresByteCount_comp h fun _ _ => ⟨_, rfl⟩)

/-! ### Commands -/

/-- An arming sets BYTECOUNT to its size, whatever it held (rules R118, R172). -/
theorem ignoresByteCount_replySlice (o : List Byte) (offset size : Nat) :
    IgnoresByteCount (replySlice o offset size) := by
  have hwrite : IgnoresByteCount (spiWrite (slice o offset size) size) :=
    ignoresByteCount_guard (fun _ _ => Iff.rfl) (ignoresByteCount_armPioOut _ _)
  exact ignoresByteCount_guard (fun _ _ => Iff.rfl) hwrite

/-- A refill is sized by the progress record and the disc, not by BYTECOUNT (rules R181, R182). -/
theorem ignoresByteCount_cdRead : IgnoresByteCount cdRead := by
  have hdma : IgnoresByteCount cdReadDma := ignoresByteCount_guard (fun _ _ => Iff.rfl) fun _ _ => ⟨_, rfl⟩
  have hpio : IgnoresByteCount cdReadPio := ignoresByteCount_guard (fun _ _ => Iff.rfl) fun _ _ => ⟨_, rfl⟩
  exact ignoresByteCount_ite (p := fun s => s.cdr.dma = true) (fun _ _ => Iff.rfl) hdma hpio

theorem ignoresByteCount_ataCmd (c : Byte) : IgnoresByteCount (ataCmd c) := by
  have hfault : ∀ cause, IgnoresByteCount (ataArm (raiseFault cause)) := fun cause =>
    ignoresByteCount_ataArm (ignoresByteCount_raiseFault cause)
  unfold ataCmd decodeAta
  split
  · exact ignoresByteCount_ataArm (ignoresByteCount_comp ignoresByteCount_ataEnd (g := fun s =>
      { s with error := putAbrt true s.error, status := putCheck true s.status }) fun _ _ => ⟨_, rfl⟩)
  · exact ignoresByteCount_ataArm (ignoresByteCount_comp (g := softReset) ignoresByteCount_ataEnd
      fun _ _ => ⟨_, rfl⟩)
  · exact hfault _
  · simp only [ataCase, ataPacketCmd]
    exact ignoresByteCount_ataArm fun _ _ => ⟨_, rfl⟩
  · exact hfault _
  · exact ignoresByteCount_ataArm ignoresByteCount_ataEnd
  · exact hfault _

theorem ignoresByteCount_effect_spi {i : Instr} (hi : i.isSpi = true) : IgnoresByteCount (effect i) := by
  cases i <;> simp only [Instr.isSpi, Bool.false_eq_true] at hi
  case spiReqStat offset size =>
    exact ignoresByteCount_spiArm (ignoresByteCount_read (read := statusReply) (fun _ _ => rfl) fun o =>
      ignoresByteCount_replySlice o offset.toNat size.toNat)
  case spiReqMode offset size =>
    exact ignoresByteCount_spiArm (ignoresByteCount_read (read := fun t => t.hwInfo.toList) (fun _ _ => rfl) fun o =>
      ignoresByteCount_replySlice o offset.toNat size.toNat)
  case spiSetMode offset size =>
    exact ignoresByteCount_spiArm (ignoresByteCount_guard (p := fun _ => 32 < offset.toNat + size.toNat)
      (fun _ _ => Iff.rfl) (ignoresByteCount_spiRead _ _))
  case spiGetToc area size =>
    unfold effect spiGetToc
    refine ignoresByteCount_spiArm fun s b => ?_
    cases hd : s.disc with
    | none => simpa only [withByteCount_disc, hd] using ignoresByteCount_raiseFault .noDisc s b
    | some d =>
      cases ht : tocReply d area with
      | none => simpa only [withByteCount_disc, hd, ht] using ignoresByteCount_raiseFault .bounds s b
      | some o => simpa only [withByteCount_disc, hd, ht] using ignoresByteCount_replySlice o 0 size.toNat s b
  case spiReqSes session size =>
    unfold effect spiReqSes
    refine ignoresByteCount_spiArm fun s b => ?_
    cases hd : s.disc with
    | none => simpa only [withByteCount_disc, hd] using ignoresByteCount_raiseFault .noDisc s b
    | some d =>
      cases hq : sessionQuery d session.toNat with
      | none => simpa only [withByteCount_disc, hd, hq] using ignoresByteCount_raiseFault .bounds s b
      | some q =>
        simpa only [withByteCount_disc, withByteCount_driveStatus, hd, hq] using
          ignoresByteCount_replySlice (sessionReply s.driveStatus q.1 q.2) 0 size.toNat s b
  case spiCdSeek param =>
    unfold effect spiCdSeek
    refine ignoresByteCount_spiArm ?_
    cases seekStatus param with
    | none => exact ignoresByteCount_raiseFault _
    | some v => exact ignoresByteCount_driveStatusEnd v
  case spiCdRead msf fmt mask a b c count =>
    unfold effect spiCdRead
    exact ignoresByteCount_spiArm (ignoresByteCount_comp ignoresByteCount_cdRead fun _ _ => ⟨_, rfl⟩)
  case spiReqError | spiGetScd => exact ignoresByteCount_spiArm (ignoresByteCount_replySlice _ _ _)
  case spiReqSecu =>
    exact ignoresByteCount_spiArm (ignoresByteCount_guard (p := fun _ => 65536 < 126) (fun _ _ => Iff.rfl)
      (ignoresByteCount_armPioOut _ _))
  case spiTestUnit | spiChkSecu => exact ignoresByteCount_spiArm ignoresByteCount_spiEnd
  case spiCdPlay | spiCdScan => exact ignoresByteCount_spiArm (ignoresByteCount_driveStatusEnd _)
  case spiCdOpen | spiCdRead2 | spiUnknown => exact ignoresByteCount_spiArm (ignoresByteCount_raiseFault _)

/-! ### Data transfers -/

/-- The packet is decoded from the buffer (rules R115, R150). -/
theorem ignoresByteCount_spiCmd : IgnoresByteCount spiCmd := by
  intro s b
  rw [spiCmd_eq_effect, spiCmd_eq_effect]
  exact ignoresByteCount_effect_spi (decodeSpi_isSpi _) s b

/-- Where a buffer ends is `pio_size`'s and `dma_size`'s matter (rule R116). -/
theorem ignoresByteCount_pioRead : IgnoresByteCount pioRead := by
  have hdrained : IgnoresByteCount drained :=
    ignoresByteCount_ite (fun _ _ => Iff.rfl) ignoresByteCount_cdRead ignoresByteCount_spiEnd
  unfold pioRead
  exact ignoresByteCount_ite (fun _ _ => Iff.rfl)
    (ignoresByteCount_ite (fun _ _ => Iff.rfl) hdrained ignoresByteCount_id)
    (ignoresByteCount_ite (fun _ _ => Iff.rfl) hdrained ignoresByteCount_id)

/-- A receipt ends at `pio_size` (rules R115, R117). -/
theorem ignoresByteCount_pioWrite : IgnoresByteCount pioWrite := by
  have hdata : IgnoresByteCount spiData := ignoresByteCount_guard (fun _ _ => Iff.rfl) fun _ _ => ⟨_, rfl⟩
  unfold pioWrite
  exact ignoresByteCount_ite (fun _ _ => Iff.rfl) ignoresByteCount_spiCmd
    (ignoresByteCount_ite (fun _ _ => Iff.rfl) (ignoresByteCount_post _ hdata) ignoresByteCount_id)

/-- An operation that answers with a value it reads from the other fields before it starts. -/
theorem ignoresByteCount_answer_read {value : State → Response}
    (hvalue : ∀ b s, value (withByteCount b s) = value s) {f : State → State} (hf : IgnoresByteCount f) :
    IgnoresByteCount fun s => answer (value s) (f s) :=
  ignoresByteCount_read hvalue fun r => ignoresByteCount_comp (ignoresByteCount_answer r) hf

theorem ignoresByteCount_rdData : IgnoresByteCount rdData :=
  ignoresByteCount_guard (fun _ _ => Iff.rfl)
    (ignoresByteCount_answer_read (fun _ _ => rfl)
      (ignoresByteCount_comp (ignoresByteCount_post _ ignoresByteCount_pioRead) fun _ _ => ⟨_, rfl⟩))

theorem ignoresByteCount_wrData (v : Reg) : IgnoresByteCount (wrData v) :=
  ignoresByteCount_guard (fun _ _ => Iff.rfl)
    (ignoresByteCount_comp (ignoresByteCount_post _ ignoresByteCount_pioWrite) fun _ _ => ⟨_, rfl⟩)

theorem ignoresByteCount_dmard (n : Nat) : IgnoresByteCount (dmard n) :=
  ignoresByteCount_guard (fun _ _ => Iff.rfl)
    (ignoresByteCount_guard (fun _ _ => Iff.rfl)
      (ignoresByteCount_answer_read (fun _ _ => rfl)
        (ignoresByteCount_comp (ignoresByteCount_post _ ignoresByteCount_pioRead) fun _ _ => ⟨_, rfl⟩)))

/-! ### Every instruction -/

theorem ignoresByteCount_effect {i : Instr} (hi : ¬ readsByteCount i) : IgnoresByteCount (effect i) := by
  have hreg : ∀ {value : State → Reg}, (∀ b s, value (withByteCount b s) = value s) →
      IgnoresByteCount fun s => answer (.word (slotWord (value s))) s := fun h =>
    ignoresByteCount_answer_read (fun b s => by rw [h]) ignoresByteCount_id
  cases i
  case rdBytecountLo => exact absurd (.inl rfl) hi
  case rdBytecountHi => exact absurd (.inr rfl) hi
  case rdAltstatus | rdError | rdIntreason | rdSectnum | rdDrvsel => exact hreg fun _ _ => rfl
  case rdStatus => exact ignoresByteCount_answer_read (fun _ _ => rfl) fun _ _ => ⟨_, rfl⟩
  case rdData => exact ignoresByteCount_rdData
  case wrData v => exact ignoresByteCount_wrData v
  case dmard n => exact ignoresByteCount_dmard n
  case wrCommand v => exact ignoresByteCount_ataCmd _
  case ataNop => exact ignoresByteCount_ataCmd 0x00
  case ataSoftReset => exact ignoresByteCount_ataCmd 0x08
  case ataExecDiag => exact ignoresByteCount_ataCmd 0x90
  case ataPacketCmd => exact ignoresByteCount_ataCmd 0xA0
  case ataIdentifyDev => exact ignoresByteCount_ataCmd 0xA1
  case ataSetFeatures => exact ignoresByteCount_ataCmd 0xEF
  case ataUnknown c => exact ignoresByteCount_ataArm (ignoresByteCount_raiseFault _)
  case wrDevctrl | wrFeatures | wrSlot3 | wrSlot4 | wrBytecountLo | wrBytecountHi | wrDrvsel | bind =>
    exact fun _ _ => ⟨_, rfl⟩
  all_goals exact ignoresByteCount_effect_spi rfl

/-- Settles O52: the effect ignores BYTECOUNT, and whether the instruction is performed does not depend on it. -/
theorem byteCountControlsNothing : Obligations.ByteCountControlsNothing := by
  intro i s t b hi h
  obtain ⟨hf, hd, rfl⟩ := exec_next h
  obtain ⟨c, hc⟩ := ignoresByteCount_effect hi { s with response := .none } b
  exact ⟨c, (exec_ready (s := { s with byteCount := b }) hf hd).trans (congrArg _ hc)⟩

end Sys2Proof.Machine.Proofs
end

section
/-! SUPPORT. BIND of a disc outside the environment's obligation (spec 92_eei_decisions.md decision D42,
93_implementation_defined.md U25). -/

namespace Sys2Proof.Machine.Proofs

/-- BIND checks the disc's obligation before anything of the state, its fault included. -/
theorem execBind_outside {d : Disc} (h : ¬ d.meetsObligation) (s : State) :
    execBind (some d) s = .refused .discOutsideObligation := if_neg h

/-- Settles O26: a disc that fails the obligation takes the refusing branch of BIND, whatever the state. -/
theorem bindRefusesADiscOutsideItsObligation : Obligations.BindRefusesADiscOutsideItsObligation :=
  fun _ s hd => execBind_outside hd s

end Sys2Proof.Machine.Proofs
end
